-- ==== Sys2Proof/Word.lean ====
section
/-! DEFINITION. The word types of the SSP framer block: the byte, which is the block's unit of transfer
(spec/20_memory.md rule R76), the 16-bit value of the CRC (rule R140 of spec/40_crc_stuffing.md) and the 32-bit value
of the encryption counter (rule R27 of spec/10_state.md).  No value of the block is signed (rule R14). -/

namespace Sys2Proof

/-- A byte, 0 to 255; bit 7 is its most significant bit (rule R14). -/
abbrev Byte := BitVec 8

/-- The 16-bit register value of the CRC unit (rule R140). -/
abbrev CrcWord := BitVec 16

/-- The 32-bit encryption counter, as it travels in an envelope (rules R27 and R111). -/
abbrev Count := BitVec 32

/-- A byte string: an ordered sequence of bytes indexed from 0 (rules R15 and R43). -/
abbrev Bytes := List Byte

end Sys2Proof
end

