-- ==== Sys2Proof/Config.lean ====
section
/-! DEFINITION. What one instance of the block fixes (spec/00_scope.md rule R13), the interfaces of the external tables
(spec/46_host_sequences.md rules R321 and R322), and the free values: constants without a body, about which nothing
can be proved. -/

namespace Sys2Proof

/-! ### The parameters that rule R13 fixes -/

/-- `STX`, the start marker: 0x7F, fixed (rules R13 and R100). -/
def stx : Byte := 0x7F

/-- `STEX`, the marker of an encrypted envelope: 0x7E, fixed (rules R13 and R100). -/
def stex : Byte := 0x7E

/-- `CRC_SEED`: 0xFFFF, fixed (rules R13 and R140). -/
abbrev crcSeed : CrcWord := 0xFFFF

/-- `CRC_POLY`: 0x8005, fixed (rules R13 and R140). -/
abbrev crcPoly : CrcWord := 0x8005

/-- `RXBUF_CAP`: 260 bytes (rules R13 and R22). -/
abbrev rxBufCap : Nat := 260

/-- `TXBUF_CAP`: 519 bytes (rules R13 and R33). -/
abbrev txBufCap : Nat := 519

/-- `AES_KEY_BYTES`: 16, fixed (rules R13 and R190). -/
abbrev aesKeyBytes : Nat := 16

/-- `AES_BLOCK_BYTES`: 16, fixed (rules R13 and R190). -/
abbrev aesBlockBytes : Nat := 16

/-- A parameter that rule R13 fixes: a field of this type holds `v` and nothing else, so the units may use the
constant. -/
abbrev Fixed {α : Type} (v : α) : Type := { x : α // x = v }

/-- A number of attempts: "natural number, at least 1" (rule R13). -/
abbrev Attempts : Type := { n : Nat // 1 ≤ n }

/-! ### The external tables -/

/-- A command's name.  The ten the rules name (rule R321: the nine names of the source, its "setup/unit-data" being two),
and every other name: the table is a parameter and may hold any command. -/
inductive CommandName where
  | sync
  | poll
  | enable
  | disable
  | setGenerator
  | setModulus
  | requestKeyExchange
  | hostProtocolVersion
  | setupRequest
  | unitData
  | other (name : String)
  deriving DecidableEq, Repr

/-- One row of the external command table, `{numericCode, requiresArgs, requiresEncryption}` (rule R321). -/
structure CommandDef where
  numericCode : Byte
  requiresArgs : Bool
  requiresEncryption : Bool
  deriving DecidableEq, Repr

/-- One event a POLL response reports, with the name it is emitted under (rules R323 and R328).  The types of both fields
are the model's (DESIGN CHOICE, log entry 3). -/
structure PollEvent where
  name : String
  data : Bytes
  deriving DecidableEq, Repr

/-- The `info` of a decoded response (rule R322).  The spec gives it no type; the fields' types are the model's (DESIGN CHOICE,
log entry 3). -/
structure Info where
  /-- The device's bytes of a key exchange response (rule R329). -/
  interKey : Bytes
  /-- What a setup or unit-data response teaches the host (rule R329). -/
  protocolVersion : Option Nat
  /-- What a setup or unit-data response teaches the host (rule R329). -/
  unitType : Option Nat
  /-- The events of a POLL response (rule R328). -/
  events : List PollEvent
  /-- Everything else, by name; it goes to the caller, and no rule reads it. -/
  others : List (String × Bytes)
  deriving DecidableEq, Repr, Inhabited

/-- What the external response decoder answers, `{success, status, info}` (rule R322).  That `status` is one byte is the
model's (DESIGN CHOICE, log entry 3). -/
structure Decoded where
  success : Bool
  status : Byte
  info : Info
  deriving DecidableEq, Repr, Inhabited

/-- Which argument encoder and response decoder the host uses.  `external` is the spec's own case: two functions the
model knows nothing about (spec/93_implementation_defined.md U15).  `sample` is the layout that the examples of
rules R324 and R329 use, `[from general knowledge, not in source]` (G7); `rejecting` is the same with an encoder that
fails whatever it is given; only examples use these two. -/
inductive Codec where
  | external
  | sample
  | rejecting
  deriving DecidableEq, Repr

/-- The parameters of one instance of the block and of its host (rule R13).  They are plain data so that a run can be
written down; no step writes them (rule R37). -/
structure Config where
  /-- `STX`. -/
  stx : Fixed stx
  /-- `STEX`. -/
  stex : Fixed stex
  /-- `CRC_SEED`. -/
  crcSeed : Fixed crcSeed
  /-- `CRC_POLY`. -/
  crcPoly : Fixed crcPoly
  /-- `RXBUF_CAP`. -/
  rxBufCap : Fixed rxBufCap
  /-- `TXBUF_CAP`. -/
  txBufCap : Fixed txBufCap
  /-- `AES_KEY_BYTES`. -/
  aesKeyBytes : Fixed aesKeyBytes
  /-- `AES_BLOCK_BYTES`. -/
  aesBlockBytes : Fixed aesBlockBytes
  /-- `COMMAND_RETRIES`, how many attempts a command has, the first included; at least 1. -/
  commandRetries : Attempts
  /-- `TIMEOUT_MS`; no rule reads it (rules R13 and R418). -/
  timeoutMs : Nat
  /-- `ENCRYPT_ALL`, the source's `globalEncryptAllFlag`. -/
  encryptAll : Bool
  /-- `DEVICE_ID`, the nibble in bits 3 to 0 of SEQ_BYTE (rule R103). -/
  deviceId : BitVec 4
  /-- `FIXED_KEY`, the host's pre-shared half of the key (rule R114). -/
  fixedKey : BitVec 64
  /-- `POLLING_INTERVAL`, milliseconds; no rule reads it. -/
  pollingInterval : Nat
  /-- `BUSY_POLL_INTERVAL`, milliseconds; no rule reads it. -/
  busyPollInterval : Nat
  /-- The host's command table (rule R321). -/
  commands : List (CommandName × CommandDef)
  /-- The host's argument encoder and response decoder (rule R322). -/
  codec : Codec
  deriving DecidableEq, Repr

/-! ### Free values -/

/-- FREE VALUE.  The number drawn as the model's n-th draw that no queued input fixes: a padding byte, a prime, the
host's random exponent (rule R17, `draw`; spec/93_implementation_defined.md U1, U2, U3). -/
opaque Config.draw : Nat → Nat

/-- FREE VALUE.  `encode(commandName, args, protocolVersion)`, the external argument encoder; `none` where it fails
(rule R322, U15).  That `args` are natural numbers, and a protocol version one, is the model's (DESIGN CHOICE, log
entry 3). -/
opaque Config.encodeArgs : CommandName → List Nat → Option Nat → Option Bytes

/-- FREE VALUE.  `decode(plainPayload, commandName, protocolVersion, unitType)`, the external response decoder
(rule R322, U15).  That a protocol version and a unit type are natural numbers is the model's (DESIGN CHOICE, log
entry 3). -/
opaque Config.decodeResponse : Bytes → CommandName → Option Nat → Option Nat → Decoded

/-- FREE VALUE.  `modexp(b, e, 0)`: rule R301 of spec/45_key_agreement.md states a result for a modulus of at least 1
only. -/
opaque Config.modexpZero : Nat → Nat → Nat

/-! ### The instance after reset -/

/-- The command codes of the table of rule R321, `[from general knowledge, not in source]` (G3). -/
def sampleCommands : List (CommandName × CommandDef) :=
  [(.sync, ⟨0x11, false, false⟩),
   (.poll, ⟨0x07, false, false⟩),
   (.enable, ⟨0x0A, false, false⟩),
   (.disable, ⟨0x09, false, false⟩),
   (.hostProtocolVersion, ⟨0x06, true, false⟩),
   (.setupRequest, ⟨0x05, false, false⟩),
   (.unitData, ⟨0x0D, false, false⟩),
   (.setGenerator, ⟨0x4A, true, false⟩),
   (.setModulus, ⟨0x4B, true, false⟩),
   (.requestKeyExchange, ⟨0x4C, true, false⟩)]

/-- The parameters of the instance that `State.reset` stands for.  `COMMAND_RETRIES` and `TIMEOUT_MS` are the spec's
defaults (rule R13); the others are OPEN in the spec and the values here are the ones its examples use
(DESIGN CHOICE, log entry 2; the command table PRESUMED, log entry 3). -/
def Config.initial : Config :=
  { stx := ⟨_, rfl⟩
    stex := ⟨_, rfl⟩
    crcSeed := ⟨_, rfl⟩
    crcPoly := ⟨_, rfl⟩
    rxBufCap := ⟨_, rfl⟩
    txBufCap := ⟨_, rfl⟩
    aesKeyBytes := ⟨_, rfl⟩
    aesBlockBytes := ⟨_, rfl⟩
    commandRetries := ⟨20, by decide⟩
    timeoutMs := 1000
    encryptAll := false
    deviceId := 0
    fixedKey := 0x0123456701234567
    pollingInterval := 0
    busyPollInterval := 0
    commands := sampleCommands
    codec := .external }

end Sys2Proof
end

