-- ==== Sys2Proof/Syntax.lean ====
section
/-! DEFINITION. The operations of the block and of its host: one constructor for each of the 20 rows of the operation
table (spec/30_encoding.md rule R120), with the operand fields of rule R121. -/

namespace Sys2Proof

/-- The `flags` byte of EXEC and BUILD, the descriptor bits of rules R119 and R121: bit 0 `known`, bit 1 `reqArgs`,
bit 2 `reqEnc`, bit 3 `isSync`. -/
structure CmdFlags where
  known : Bool
  reqArgs : Bool
  reqEnc : Bool
  isSync : Bool
  deriving DecidableEq, Repr

/-- An operation: one transaction at one port (rule R120).  Byte string operands are lists; the widths a record can
carry are `WellFormed`'s. -/
inductive Instr where
  /-- CRC16, code 0x01, format P (rule R141). -/
  | crc16 (data : Bytes)
  /-- STUFF, code 0x02, format P (rule R148). -/
  | stuff (data : Bytes)
  /-- AES_ENC, code 0x04, format P (rule R190). -/
  | aesEnc (key data : Bytes)
  /-- AES_DEC, code 0x05, format P (rule R191). -/
  | aesDec (key data : Bytes)
  /-- BUILD, code 0x08, format P (rule R220). -/
  | build (flags : CmdFlags) (code seqByte : Byte) (key : Option Bytes) (eCount : Count) (args : Bytes)
  /-- EXTRACT, code 0x09, format P (rule R230). -/
  | extract (frame : Bytes) (key : Option Bytes) (eCount : Count)
  /-- EXEC, code 0x10, format S (rule R251). -/
  | exec (flags : CmdFlags) (code : Byte) (args : Bytes)
  /-- KEY_INSTALL, code 0x11, format S (rule R263). -/
  | keyInstall (key : Bytes)
  /-- KEY_CLEAR, code 0x12, format S (rule R264). -/
  | keyClear
  /-- RX_BYTE, code 0x20, format L (rule R161). -/
  | rxByte (b : Byte)
  /-- RX_FLUSH, code 0x21, format L (rule R171). -/
  | rxFlush
  /-- RX_CHUNK, code 0x22, format L (rule R170). -/
  | rxChunk (data : Bytes)
  /-- FRAME_IN, code 0x23, format I (rule R255). -/
  | frameIn (frame : Bytes)
  /-- TIMEOUT, code 0x30, format T (rule R262). -/
  | timeout
  /-- GEN_KEYPAIR, code 0x40, format H, host side (rule R300). -/
  | genKeypair
  /-- DERIVE_KEY, code 0x41, format H, host side (rule R302). -/
  | deriveKey (slaveInterKeyBytes : Bytes) (fixedKey : BitVec 64) (hostRandom modulus : Nat)
  /-- INIT_ENCRYPTION, code 0x50, format X, host side (rule R324). -/
  | initEncryption
  /-- ENABLE, code 0x51, format X, host side (rule R325). -/
  | enable
  /-- DISABLE, code 0x52, format X, host side (rule R326). -/
  | disable
  /-- POLL, code 0x53, format X, host side (rule R327). -/
  | poll (desired : Bool)
  deriving DecidableEq, Repr

end Sys2Proof
end

