-- ==== Sys2Proof/Machine/State.lean ====
section
/-! DEFINITION. The state of the machine: every register and buffer of the block (spec/10_state.md rule R20), the outputs it
has put on its ports, the variables of the host's side (rules R38 and R304), the inputs that wait at the ports, and the
free input of the draws.  All of it is plain data. -/

namespace Sys2Proof.Machine

/-- RXS, the Frame Decoder's state register (rule R21). -/
inductive RxState where
  | idle
  | inFrame
  | awaitStuff
  deriving DecidableEq, Repr

/-- SESS, the session's state register (rule R30). -/
inductive SessState where
  | idle
  | awaiting
  deriving DecidableEq, Repr

/-- The errors of the block and of its host, and OK (the table of rule R351, spec/60_exceptions.md).  They are values
of RES records and of LASTCAUSE; none of them stops the machine. -/
inductive Status where
  | ok
  /-- Never raised (rule R353). -/
  | framingError
  | crcMismatch
  | sequenceMismatch
  | timeout
  | counterMismatch
  | decryptionFailure
  | unknownCommand
  | encryptionRequired
  | alreadyProcessing
  | commandFailedAfterRetries
  | keyExchangeFailure
  | unknownResponse
  | argsRequired
  | payloadTooLong
  | encryptionFailure
  | illegalOp
  deriving DecidableEq, Repr

/-- A record on the port RES (rule R122).  `ok` is the one record of an operation that succeeded; `completed` and
`commandFailed` are the second record of an EXEC, when its command ends. -/
inductive Res where
  /-- Status OK and the operation's result bytes (none for EXEC, KEY_INSTALL and KEY_CLEAR). -/
  | ok (data : Bytes)
  /-- Status OK and the plain payload of the command that ended (rule R259). -/
  | completed (payload : Bytes)
  /-- Status CommandFailedAfterRetries with the attempt count and the last cause (rule R362). -/
  | commandFailed (attempts : Nat) (cause : Status)
  /-- The status of an operation that raised an error, and nothing more. -/
  | error (e : Status)
  deriving DecidableEq, Repr

/-- One emission, `emit PORT(v)` (rule R17). -/
inductive Output where
  /-- One `write(bytes)` of a whole wire packet on TXD (rule R70). -/
  | txd (packet : Bytes)
  /-- One result record on RES. -/
  | res (record : Res)
  deriving DecidableEq, Repr

/-- The input ports (rule R118), and the places where the operations stand that no port carries: `internal` for the
decoder's hand-off FRAME_IN, `host` for the host-side operations of formats H and X (rule R120). -/
inductive Port where
  | cmd
  | rxd
  | tmo
  | internal
  | host
  deriving DecidableEq, Repr

/-- An event that the host emits at a moment the source does not describe (rule R323).  The source says nothing of what it
carries (rule R380); here it carries nothing but its name (DESIGN CHOICE, log entry 16). -/
inductive FreeEvent where
  | opened
  | closed
  | debug
  deriving DecidableEq, Repr

/-- What the environment presents next: which agent moves, and with what (rule R18). -/
inductive Input where
  /-- One operation record at a port. -/
  | record (port : Port) (bytes : Bytes)
  /-- The host's software calls `exec(name, args)` (spec/46_host_sequences.md). -/
  | hostExec (name : CommandName) (args : List Nat)
  /-- The host goes on with its procedure number `k`, if what that procedure waits for is there. -/
  | hostRun (k : Nat)
  /-- The host's poll reschedule timer expires (rule R328). -/
  | pollTimer
  /-- The host emits `open`, `close` or `debug` (rule R323). -/
  | freeEvent (e : FreeEvent)
  deriving DecidableEq, Repr

/-- What GEN_KEYPAIR returns (rule R300). -/
structure KeyPair where
  generator : Nat
  modulus : Nat
  hostRandom : Nat
  hostInter : Nat
  deriving DecidableEq, Repr

/-- What the host's `exec(name, args)` returns: the argument encoder failed before the block has seen the command (rule
R322), the EXEC was refused, the command failed after its retries, the decoded response, or the error that interpreting it
raised: "the decoded result or the failure" (spec/46_host_sequences.md; rules R17 and R329). -/
inductive CmdOutcome where
  | encodeFailed
  | refused (e : Status)
  | failed (attempts : Nat) (cause : Status)
  | decoded (d : Decoded)
  | raised (e : Status)
  deriving DecidableEq, Repr

/-- What a host procedure does with the outcome of the command it waits for. -/
inductive Continuation where
  /-- A direct command of the host: the outcome is what it returns. -/
  | report
  /-- Step `n` (1 to 3) of INIT_ENCRYPTION with its key pair (rule R324). -/
  | initStep (n : Nat) (kp : KeyPair)
  /-- ENABLE (rule R325). -/
  | enable
  /-- DISABLE (rule R326). -/
  | disable
  /-- A poll cycle (rule R328). -/
  | pollCycle
  deriving DecidableEq, Repr

/-- A host procedure that waits. -/
inductive Task where
  /-- For the final RES record of its command, among the outputs from number `mark` on. -/
  | awaiting (name : CommandName) (k : Continuation) (mark : Nat)
  /-- For PROC = 0, before `POLL(desired)` takes effect (rule R327); for an ENABLE that made the request, what it then
  returns (rule R325). -/
  | pollWait (desired : Bool) (enabling : Option CmdOutcome)
  /-- For PROC = 0, before the `POLL(false)` of DISABLE takes effect (rule R326). -/
  | disableWait
  /-- For its turn to issue the command of step `n` of INIT_ENCRYPTION (rule R324): other agents may step first. -/
  | initIssue (n : Nat) (kp : KeyPair)
  deriving DecidableEq, Repr

/-- What a host-side operation or procedure returned or raised. -/
inductive HostResult where
  /-- GEN_KEYPAIR's result (rule R300). -/
  | keyPair (kp : KeyPair)
  /-- DERIVE_KEY's result (rule R302). -/
  | derived (slaveInterKey key : Nat) (encryptKey : Bytes)
  /-- KeyExchangeFailure with the step of INIT_ENCRYPTION (0 outside the three steps) and the underlying failure
  (rules R324 and R363). -/
  | keyExchangeFailure (step : Nat) (cause : Option CmdOutcome)
  /-- INIT_ENCRYPTION ended with the key installed. -/
  | initDone
  /-- The outcome of a command the host issued. -/
  | command (name : CommandName) (outcome : CmdOutcome)
  deriving DecidableEq, Repr

/-- An event for the event sink (rule R323).  The rules say when `error` and the events of a POLL response are
emitted; `open`, `close` and `debug` come when the input `freeEvent` says so. -/
inductive HostEvent where
  | free (e : FreeEvent)
  | error (o : CmdOutcome)
  | poll (e : PollEvent)
  deriving DecidableEq, Repr

/-- The variables of the surrounding software (rules R38 and R304) and the procedures it has begun. -/
structure HostSide where
  enabled : Bool
  polling : Bool
  protocolVersion : Option Nat
  unitType : Option Nat
  generator : Option Nat
  modulus : Option Nat
  hostRandom : Option Nat
  hostInter : Option Nat
  slaveInterKey : Option Nat
  key : Option Nat
  /-- A poll cycle is scheduled (rule R328); one at most (DESIGN CHOICE, log entry 25). -/
  pollScheduled : Bool
  /-- The procedures that wait, oldest first. -/
  tasks : List Task
  /-- What the procedures returned, oldest first. -/
  results : List HostResult
  /-- The events emitted to the sink, oldest first. -/
  events : List HostEvent
  deriving DecidableEq, Repr

/-- Reasons to stop with a fault.  The spec has none: every error is a value of a RES record, nothing on the wire is
illegal to the decoder (rule R124), and every operation is total. -/
inductive Fault where
  deriving DecidableEq, Repr

/-- Reasons to refuse a step. -/
inductive Refusal where
  /-- Raised by `exec` for an instruction that has no meaning yet; safe.  No arm raises it. -/
  | notModelled (mnemonic : String)
  /-- Raised by the fetch when the record that waits at a port other than CMD is no operation of that port.  The spec
  defines no such input: only CMD takes records that may be malformed, and there the block answers IllegalOp
  (rule R123).  Safe: the machine stops where the spec has no step. -/
  | notAnInput (port : Port)
  deriving DecidableEq, Repr

/-- The machine.  RXLEN and TXLEN are the lengths of `rxBuf` and `txBuf`, which hold the valid bytes and no others
(rules R22 and R33). -/
structure State where
  /-- The parameters of the instance (rule R37); no step writes them. -/
  cfg : Config
  /-- RXS (rule R21). -/
  rxs : RxState
  /-- `RXBUF[0:RXLEN]` (rule R22). -/
  rxBuf : Bytes
  /-- SEQ, the sequence bit (rule R26). -/
  seq : Bool
  /-- ECOUNT, the encryption counter (rule R27). -/
  eCount : Count
  /-- KEYV (rule R28). -/
  keyV : Bool
  /-- KEY, 16 bytes (rule R28). -/
  key : Bytes
  /-- PROC (rule R29). -/
  proc : Bool
  /-- SESS (rule R30). -/
  sess : SessState
  /-- ATTEMPT (rule R31). -/
  attempt : Nat
  /-- OSEQ, the outbound sequence byte (rule R32). -/
  oSeq : Byte
  /-- `TXBUF[0:TXLEN]` (rule R33). -/
  txBuf : Bytes
  /-- TMR (rule R34). -/
  tmr : Bool
  /-- LASTCAUSE (rule R35); `ok` is the spec's `none`, code 0x00. -/
  lastCause : Status
  /-- Everything emitted on TXD and RES, oldest first (rules R17 and R118). -/
  out : List Output
  /-- The host's side. -/
  host : HostSide
  /-- What the environment presents, next first (the model's own; rules R18 and R80). -/
  inbox : List Input
  /-- Draws that the environment has fixed, next first (the model's own; rule R17). -/
  draws : List Nat
  /-- How many draws have come from the free value `Config.draw` (the model's own). -/
  drawCount : Nat
  deriving DecidableEq, Repr

/-- The host's side right after reset (rule R38): not enabled, not polling, nothing learned, no key material. -/
def HostSide.reset : HostSide :=
  { enabled := false
    polling := false
    protocolVersion := none
    unitType := none
    generator := none
    modulus := none
    hostRandom := none
    hostInter := none
    slaveInterKey := none
    key := none
    pollScheduled := false
    tasks := []
    results := []
    events := [] }

/-- The machine right after reset (rules R20, R45 and R401).  KEY and OSEQ, which the spec leaves unspecified, are
zero (DESIGN CHOICE, log entry 1). -/
def State.reset : State :=
  { cfg := Config.initial
    rxs := .idle
    rxBuf := []
    seq := true
    eCount := 0
    keyV := false
    key := List.replicate 16 0
    proc := false
    sess := .idle
    attempt := 0
    oSeq := 0
    txBuf := []
    tmr := false
    lastCause := .ok
    out := []
    host := HostSide.reset
    inbox := []
    draws := []
    drawCount := 0 }

end Sys2Proof.Machine
end

