-- ==== Sys2Proof/Machine/Flags.lean ====
section
/-! DEFINITION. The flags of the block and of its host (spec/10_state.md rule R41), each of one bit, and the codes of the
errors (rule R351).  The block has no arithmetic condition codes. -/

namespace Sys2Proof.Machine

/-- The flags of rule R41, (a) to (g). -/
structure FlagView where
  pendingStuff : Bool
  proc : Bool
  keyV : Bool
  tmr : Bool
  seq : Bool
  enabled : Bool
  polling : Bool
  deriving DecidableEq, Repr

/-- The pending-stuff flag is held as `RXS = AWAIT_STUFF` (rule R41 (a)). -/
def pendingStuff (s : State) : Bool :=
  s.rxs == .awaitStuff

/-- The flags of a state (rule R41). -/
def flagsOf (s : State) : FlagView :=
  { pendingStuff := pendingStuff s
    proc := s.proc
    keyV := s.keyV
    tmr := s.tmr
    seq := s.seq
    enabled := s.host.enabled
    polling := s.host.polling }

/-- The code of an error, the status byte of a RES record (the table of rule R351). -/
def statusCode : Status → Byte
  | .ok => 0x00
  | .framingError => 0x01
  | .crcMismatch => 0x02
  | .sequenceMismatch => 0x03
  | .timeout => 0x04
  | .counterMismatch => 0x05
  | .decryptionFailure => 0x06
  | .unknownCommand => 0x07
  | .encryptionRequired => 0x08
  | .alreadyProcessing => 0x09
  | .commandFailedAfterRetries => 0x0A
  | .keyExchangeFailure => 0x0B
  | .unknownResponse => 0x0C
  | .argsRequired => 0x0D
  | .payloadTooLong => 0x0E
  | .encryptionFailure => 0x0F
  | .illegalOp => 0x10

/-- The status of a RES record (rule R122). -/
def resStatus : Res → Status
  | .ok _ => .ok
  | .completed _ => .ok
  | .commandFailed _ _ => .commandFailedAfterRetries
  | .error e => e

/-- The status byte of a RES record (rules R122 and R351). -/
def resStatusByte (r : Res) : Byte :=
  statusCode (resStatus r)

/-- The state encodings of RXS (rule R21). -/
def rxsCode : RxState → Nat
  | .idle => 0
  | .inFrame => 1
  | .awaitStuff => 2

/-- The state encodings of SESS (rule R30). -/
def sessCode : SessState → Nat
  | .idle => 0
  | .awaiting => 1

end Sys2Proof.Machine
end

