-- ==== Sys2Proof/Machine/Bytes.lean ====
section
/-! DEFINITION. Byte order and byte strings: the notation of spec/00_scope.md rule R15 (`le16`, `le32`, `le64`,
`from_le`, slices).  Every multi-byte field of the block is little-endian, least significant byte first
(spec/20_memory.md rule R71). -/

namespace Sys2Proof.Machine

/-- `le16(v) = [v[7:0], v[15:8]]` (rule R15). -/
def le16 (v : BitVec 16) : Bytes :=
  [v.extractLsb' 0 8, v.extractLsb' 8 8]

/-- `le32(v)`: four bytes, least significant first (rules R15 and R71 (c)). -/
def le32 (v : BitVec 32) : Bytes :=
  [v.extractLsb' 0 8, v.extractLsb' 8 8, v.extractLsb' 16 8, v.extractLsb' 24 8]

/-- `le64(v)`: eight bytes, least significant first (rules R15 and R71 (d)). -/
def le64 (v : BitVec 64) : Bytes :=
  [v.extractLsb' 0 8, v.extractLsb' 8 8, v.extractLsb' 16 8, v.extractLsb' 24 8,
   v.extractLsb' 32 8, v.extractLsb' 40 8, v.extractLsb' 48 8, v.extractLsb' 56 8]

/-- `from_le(s)`, the sum of `s[i] * 256^i` (rule R15). -/
def fromLe : Bytes → Nat
  | [] => 0
  | b :: bs => b.toNat + 256 * fromLe bs

/-- `s[i:j]`, the elements `i` to `j-1` (rule R15); the rules use it only where `0 ≤ i ≤ j ≤ len(s)`. -/
def slice (s : Bytes) (i j : Nat) : Bytes :=
  (s.drop i).take (j - i)

/-- `s[i]` (rule R15); the rules use it only where `i < len(s)`. -/
def byteAt (s : Bytes) (i : Nat) : Byte :=
  s.getD i 0

/-- Byte-by-byte exclusive or of two strings (rule R14, used by the AES unit). -/
def xorBytes (s t : Bytes) : Bytes :=
  List.zipWith (· ^^^ ·) s t

end Sys2Proof.Machine
end

