-- ==== Sys2Proof/WellFormed.lean ====
section
/-! DEFINITION. Which operations a record can carry (spec/30_encoding.md rule R121): a byte string has a 16-bit length,
a key is 16 bytes.  The integers of DERIVE_KEY have no record layout in the spec; the model's is eight bytes each
(DESIGN CHOICE, log entry 6). -/

namespace Sys2Proof

/-- A byte string operand "is preceded by its length as a 16-bit little-endian number" (rule R121). -/
def wfString (s : Bytes) : Bool :=
  s.length < 65536

/-- A key operand is exactly 16 bytes (rules R121 and R123). -/
def wfKey (k : Bytes) : Bool :=
  k.length == aesKeyBytes

/-- An optional key is absent or 16 bytes (rule R121). -/
def wfOptKey : Option Bytes → Bool
  | none => true
  | some k => wfKey k

/-- An integer operand of a host-side function fits the model's eight-byte field (log entry 6). -/
def wfInteger (n : Nat) : Bool :=
  n < 2 ^ 64

/-- The operation has a record (rule R121): every operand fits its field. -/
def WellFormed : Instr → Bool
  | .crc16 data => wfString data
  | .stuff data => wfString data
  | .aesEnc key data => wfKey key && wfString data
  | .aesDec key data => wfKey key && wfString data
  | .build _ _ _ key _ args => wfOptKey key && wfString args
  | .extract frame key _ => wfString frame && wfOptKey key
  | .exec _ _ args => wfString args
  | .keyInstall key => wfKey key
  | .keyClear => true
  | .rxByte _ => true
  | .rxFlush => true
  | .rxChunk data => wfString data
  | .frameIn frame => wfString frame
  | .timeout => true
  | .genKeypair => true
  | .deriveKey bytes _ hostRandom modulus => wfString bytes && wfInteger hostRandom && wfInteger modulus
  | .initEncryption => true
  | .enable => true
  | .disable => true
  | .poll _ => true

end Sys2Proof
end

