-- ==== Sys2Proof/Decode.lean ====
section
/-! DEFINITION. Records to operations and back (spec/30_encoding.md rules R120, R121 and R123): a record is the code byte
followed by the operands in the order listed.  Decoding is total and rejects by name; the encoder stands after it. -/

namespace Sys2Proof

open Sys2Proof.Machine

/-- Why bytes are no record. -/
inductive DecodeError where
  /-- The record has no code byte. -/
  | empty
  /-- The code is none of the 20 of rule R120. -/
  | unknownCode (code : Byte)
  /-- The record ends before an operand does (rule R123: "operands do not have the stated lengths"). -/
  | truncated
  /-- Bytes follow the last operand (rule R123). -/
  | trailing
  /-- A reserved bit of the `flags` byte is set (rule R123). -/
  | reservedFlags (flags : Byte)
  /-- The presence byte of an optional key is neither 0 nor 1 (rule R121). -/
  | badPresence (b : Byte)
  /-- The `desiredState` of POLL is neither 0 nor 1. -/
  | badBoolean (b : Byte)
  deriving DecidableEq, Repr

/-- One operand read off the front of a record, with the bytes that follow it. -/
abbrev Field (α : Type) := Except DecodeError (α × Bytes)

/-- One byte. -/
def takeByte : Bytes → Field Byte
  | [] => .error .truncated
  | b :: bs => .ok (b, bs)

/-- `n` bytes. -/
def takeBytes : Nat → Bytes → Field Bytes
  | 0, bs => .ok ([], bs)
  | _ + 1, [] => .error .truncated
  | n + 1, b :: bs =>
    match takeBytes n bs with
    | .ok (xs, rest) => .ok (b :: xs, rest)
    | .error e => .error e

/-- An unsigned number of `n` bytes, little-endian (rule R71). -/
def takeNumber (n : Nat) (bs : Bytes) : Field Nat :=
  match takeBytes n bs with
  | .ok (xs, rest) => .ok (fromLe xs, rest)
  | .error e => .error e

/-- A byte string, preceded by its length as a 16-bit little-endian number (rule R121). -/
def takeString (bs : Bytes) : Field Bytes :=
  match takeNumber 2 bs with
  | .ok (n, rest) => takeBytes n rest
  | .error e => .error e

/-- A key of 16 bytes (rule R121). -/
def takeKey (bs : Bytes) : Field Bytes :=
  takeBytes 16 bs

/-- An optional key: "a presence byte (0 or 1) followed, if 1, by 16 bytes" (rule R121). -/
def takeOptKey (bs : Bytes) : Field (Option Bytes) :=
  match takeByte bs with
  | .error e => .error e
  | .ok (b, rest) =>
    if b = 0 then .ok (none, rest)
    else if b = 1 then
      match takeKey rest with
      | .ok (k, rest') => .ok (some k, rest')
      | .error e => .error e
    else .error (.badPresence b)

/-- The descriptor bits of a `flags` byte (rule R121). -/
def flagsOfByte (b : Byte) : CmdFlags :=
  { known := b.getLsbD 0, reqArgs := b.getLsbD 1, reqEnc := b.getLsbD 2, isSync := b.getLsbD 3 }

/-- The `flags` byte of EXEC and BUILD; "bits 7 to 4 reserved and zero" (rules R121 and R123). -/
def takeFlags (bs : Bytes) : Field CmdFlags :=
  match takeByte bs with
  | .error e => .error e
  | .ok (b, rest) =>
    if b.extractLsb' 4 4 = 0 then .ok (flagsOfByte b, rest) else .error (.reservedFlags b)

/-- The one-bit `desiredState` of POLL, one byte (DESIGN CHOICE, log entry 6). -/
def takeBool (bs : Bytes) : Field Bool :=
  match takeByte bs with
  | .error e => .error e
  | .ok (b, rest) =>
    if b = 0 then .ok (false, rest) else if b = 1 then .ok (true, rest) else .error (.badBoolean b)

/-- The operands of a record, after its code byte, in the order of rule R121. -/
def decodeOperands (code : Byte) (bs : Bytes) : Except DecodeError (Instr × Bytes) :=
  match code.toNat with
  | 0x01 => do
    let (data, r) ← takeString bs
    .ok (.crc16 data, r)
  | 0x02 => do
    let (data, r) ← takeString bs
    .ok (.stuff data, r)
  | 0x04 => do
    let (key, r) ← takeKey bs
    let (data, r) ← takeString r
    .ok (.aesEnc key data, r)
  | 0x05 => do
    let (key, r) ← takeKey bs
    let (data, r) ← takeString r
    .ok (.aesDec key data, r)
  | 0x08 => do
    let (flags, r) ← takeFlags bs
    let (cmd, r) ← takeByte r
    let (seqByte, r) ← takeByte r
    let (key, r) ← takeOptKey r
    let (n, r) ← takeNumber 4 r
    let (args, r) ← takeString r
    .ok (.build flags cmd seqByte key (BitVec.ofNat 32 n) args, r)
  | 0x09 => do
    let (frame, r) ← takeString bs
    let (key, r) ← takeOptKey r
    let (n, r) ← takeNumber 4 r
    .ok (.extract frame key (BitVec.ofNat 32 n), r)
  | 0x10 => do
    let (flags, r) ← takeFlags bs
    let (cmd, r) ← takeByte r
    let (args, r) ← takeString r
    .ok (.exec flags cmd args, r)
  | 0x11 => do
    let (key, r) ← takeKey bs
    .ok (.keyInstall key, r)
  | 0x12 => .ok (.keyClear, bs)
  | 0x20 => do
    let (b, r) ← takeByte bs
    .ok (.rxByte b, r)
  | 0x21 => .ok (.rxFlush, bs)
  | 0x22 => do
    let (data, r) ← takeString bs
    .ok (.rxChunk data, r)
  | 0x23 => do
    let (frame, r) ← takeString bs
    .ok (.frameIn frame, r)
  | 0x30 => .ok (.timeout, bs)
  | 0x40 => .ok (.genKeypair, bs)
  | 0x41 => do
    let (bytes, r) ← takeString bs
    let (fixedKey, r) ← takeNumber 8 r
    let (hostRandom, r) ← takeNumber 8 r
    let (modulus, r) ← takeNumber 8 r
    .ok (.deriveKey bytes (BitVec.ofNat 64 fixedKey) hostRandom modulus, r)
  | 0x50 => .ok (.initEncryption, bs)
  | 0x51 => .ok (.enable, bs)
  | 0x52 => .ok (.disable, bs)
  | 0x53 => do
    let (desired, r) ← takeBool bs
    .ok (.poll desired, r)
  | _ => .error (.unknownCode code)

/-- The operation at the front of a byte string, with the bytes that follow its record. -/
def decodePrefix : Bytes → Field Instr
  | [] => .error .empty
  | code :: bs => decodeOperands code bs

/-- A whole record: the operation's record and nothing after it (rules R121 and R123). -/
def decodeRecord (bs : Bytes) : Except DecodeError Instr :=
  match decodePrefix bs with
  | .error e => .error e
  | .ok (i, []) => .ok i
  | .ok (_, _ :: _) => .error .trailing

/-! ### The encoder -/

/-- The operation code (the table of rule R120). -/
def opcode : Instr → Byte
  | .crc16 .. => 0x01
  | .stuff .. => 0x02
  | .aesEnc .. => 0x04
  | .aesDec .. => 0x05
  | .build .. => 0x08
  | .extract .. => 0x09
  | .exec .. => 0x10
  | .keyInstall .. => 0x11
  | .keyClear => 0x12
  | .rxByte .. => 0x20
  | .rxFlush => 0x21
  | .rxChunk .. => 0x22
  | .frameIn .. => 0x23
  | .timeout => 0x30
  | .genKeypair => 0x40
  | .deriveKey .. => 0x41
  | .initEncryption => 0x50
  | .enable => 0x51
  | .disable => 0x52
  | .poll .. => 0x53

/-- A byte string operand with its length before it (rule R121). -/
def encodeString (s : Bytes) : Bytes :=
  le16 (BitVec.ofNat 16 s.length) ++ s

/-- An optional key operand (rule R121). -/
def encodeOptKey : Option Bytes → Bytes
  | none => [0]
  | some k => 1 :: k

/-- The `flags` byte (rule R121). -/
def encodeFlags (f : CmdFlags) : Byte :=
  BitVec.ofNat 8 (f.known.toNat + 2 * f.reqArgs.toNat + 4 * f.reqEnc.toNat + 8 * f.isSync.toNat)

/-- The operands of a record in the order of rule R121. -/
def encodeOperands : Instr → Bytes
  | .crc16 data => encodeString data
  | .stuff data => encodeString data
  | .aesEnc key data => key ++ encodeString data
  | .aesDec key data => key ++ encodeString data
  | .build flags code seqByte key eCount args =>
    [encodeFlags flags, code, seqByte] ++ encodeOptKey key ++ le32 eCount ++ encodeString args
  | .extract frame key eCount => encodeString frame ++ encodeOptKey key ++ le32 eCount
  | .exec flags code args => [encodeFlags flags, code] ++ encodeString args
  | .keyInstall key => key
  | .keyClear => []
  | .rxByte b => [b]
  | .rxFlush => []
  | .rxChunk data => encodeString data
  | .frameIn frame => encodeString frame
  | .timeout => []
  | .genKeypair => []
  | .deriveKey bytes fixedKey hostRandom modulus =>
    encodeString bytes ++ le64 fixedKey ++ le64 (BitVec.ofNat 64 hostRandom) ++ le64 (BitVec.ofNat 64 modulus)
  | .initEncryption => []
  | .enable => []
  | .disable => []
  | .poll desired => [if desired then 1 else 0]

/-- The record of an operation: its code byte, then its operands (rules R120 and R121). -/
def encode (i : Instr) : Bytes :=
  opcode i :: encodeOperands i

/-! ### Words of the opcode table -/

/-- The `n` bytes of `w`, byte 0 its bits 7 to 0, byte 1 its bits 15 to 8, and so on. -/
def wordBytes : Nat → Nat → Bytes
  | 0, _ => []
  | n + 1, w => BitVec.ofNat 8 w :: wordBytes n (w / 256)

/-- The bytes of a table word and, after them, zero bytes enough for the longest record (a frame of 65535 bytes with
its key and counter is shorter). -/
def tableBytes (nbits w : Nat) : Bytes :=
  wordBytes ((nbits + 7) / 8) w ++ List.replicate 65600 0

/-- The operation the decoder reads from an instruction whose bits are `w`, every bit above `nbits` being 0. -/
def decodeTableWord (nbits w : Nat) : Option Instr :=
  match decodePrefix (tableBytes nbits w) with
  | .ok (i, _) => some i
  | .error _ => none

/-- The record of that instruction: the bytes the decoder read, or the table word's own where it reads none. -/
def tableRecord (nbits w : Nat) : Bytes :=
  match decodeTableWord nbits w with
  | some i => (tableBytes nbits w).take (encode i).length
  | none => wordBytes ((nbits + 7) / 8) w

end Sys2Proof
end

