-- ==== Sys2Proof/Machine/Aes.lean ====
section
/-! DEFINITION. The AES-128-ECB unit (spec/42_aes.md).  A block and a round key are 16 bytes in the flat numbering of rule
R193: byte `r + 4*c` is row `r`, column `c`.  Nothing here is state (rules R25 and R42). -/

namespace Sys2Proof.Machine

/-- `xtime(a)`, multiplication by x in GF(2^8) modulo 0x11B (rule R194). -/
def xtime (a : Byte) : Byte :=
  if a.getLsbD 7 then (a <<< 1) ^^^ 0x1B else a <<< 1

/-- `xtime` applied `i` times. -/
def xtimes : Nat → Byte → Byte
  | 0, a => a
  | i + 1, a => xtime (xtimes i a)

/-- The product `a * b`: the xor of `xtime` applied `i` times to `a` over every bit `i` set in `b` (rule R194). -/
def gmul (a b : Byte) : Byte :=
  (List.range 8).foldl (fun acc i => if b.getLsbD i then acc ^^^ xtimes i a else acc) 0

/-- The table of `SBOX`: row `x[7:4]`, column `x[3:0]` (rule R195). -/
def sboxRows : List Bytes :=
  [[0x63, 0x7C, 0x77, 0x7B, 0xF2, 0x6B, 0x6F, 0xC5, 0x30, 0x01, 0x67, 0x2B, 0xFE, 0xD7, 0xAB, 0x76],
   [0xCA, 0x82, 0xC9, 0x7D, 0xFA, 0x59, 0x47, 0xF0, 0xAD, 0xD4, 0xA2, 0xAF, 0x9C, 0xA4, 0x72, 0xC0],
   [0xB7, 0xFD, 0x93, 0x26, 0x36, 0x3F, 0xF7, 0xCC, 0x34, 0xA5, 0xE5, 0xF1, 0x71, 0xD8, 0x31, 0x15],
   [0x04, 0xC7, 0x23, 0xC3, 0x18, 0x96, 0x05, 0x9A, 0x07, 0x12, 0x80, 0xE2, 0xEB, 0x27, 0xB2, 0x75],
   [0x09, 0x83, 0x2C, 0x1A, 0x1B, 0x6E, 0x5A, 0xA0, 0x52, 0x3B, 0xD6, 0xB3, 0x29, 0xE3, 0x2F, 0x84],
   [0x53, 0xD1, 0x00, 0xED, 0x20, 0xFC, 0xB1, 0x5B, 0x6A, 0xCB, 0xBE, 0x39, 0x4A, 0x4C, 0x58, 0xCF],
   [0xD0, 0xEF, 0xAA, 0xFB, 0x43, 0x4D, 0x33, 0x85, 0x45, 0xF9, 0x02, 0x7F, 0x50, 0x3C, 0x9F, 0xA8],
   [0x51, 0xA3, 0x40, 0x8F, 0x92, 0x9D, 0x38, 0xF5, 0xBC, 0xB6, 0xDA, 0x21, 0x10, 0xFF, 0xF3, 0xD2],
   [0xCD, 0x0C, 0x13, 0xEC, 0x5F, 0x97, 0x44, 0x17, 0xC4, 0xA7, 0x7E, 0x3D, 0x64, 0x5D, 0x19, 0x73],
   [0x60, 0x81, 0x4F, 0xDC, 0x22, 0x2A, 0x90, 0x88, 0x46, 0xEE, 0xB8, 0x14, 0xDE, 0x5E, 0x0B, 0xDB],
   [0xE0, 0x32, 0x3A, 0x0A, 0x49, 0x06, 0x24, 0x5C, 0xC2, 0xD3, 0xAC, 0x62, 0x91, 0x95, 0xE4, 0x79],
   [0xE7, 0xC8, 0x37, 0x6D, 0x8D, 0xD5, 0x4E, 0xA9, 0x6C, 0x56, 0xF4, 0xEA, 0x65, 0x7A, 0xAE, 0x08],
   [0xBA, 0x78, 0x25, 0x2E, 0x1C, 0xA6, 0xB4, 0xC6, 0xE8, 0xDD, 0x74, 0x1F, 0x4B, 0xBD, 0x8B, 0x8A],
   [0x70, 0x3E, 0xB5, 0x66, 0x48, 0x03, 0xF6, 0x0E, 0x61, 0x35, 0x57, 0xB9, 0x86, 0xC1, 0x1D, 0x9E],
   [0xE1, 0xF8, 0x98, 0x11, 0x69, 0xD9, 0x8E, 0x94, 0x9B, 0x1E, 0x87, 0xE9, 0xCE, 0x55, 0x28, 0xDF],
   [0x8C, 0xA1, 0x89, 0x0D, 0xBF, 0xE6, 0x42, 0x68, 0x41, 0x99, 0x2D, 0x0F, 0xB0, 0x54, 0xBB, 0x16]]

/-- The table of `INV_SBOX` (rule R196). -/
def invSboxRows : List Bytes :=
  [[0x52, 0x09, 0x6A, 0xD5, 0x30, 0x36, 0xA5, 0x38, 0xBF, 0x40, 0xA3, 0x9E, 0x81, 0xF3, 0xD7, 0xFB],
   [0x7C, 0xE3, 0x39, 0x82, 0x9B, 0x2F, 0xFF, 0x87, 0x34, 0x8E, 0x43, 0x44, 0xC4, 0xDE, 0xE9, 0xCB],
   [0x54, 0x7B, 0x94, 0x32, 0xA6, 0xC2, 0x23, 0x3D, 0xEE, 0x4C, 0x95, 0x0B, 0x42, 0xFA, 0xC3, 0x4E],
   [0x08, 0x2E, 0xA1, 0x66, 0x28, 0xD9, 0x24, 0xB2, 0x76, 0x5B, 0xA2, 0x49, 0x6D, 0x8B, 0xD1, 0x25],
   [0x72, 0xF8, 0xF6, 0x64, 0x86, 0x68, 0x98, 0x16, 0xD4, 0xA4, 0x5C, 0xCC, 0x5D, 0x65, 0xB6, 0x92],
   [0x6C, 0x70, 0x48, 0x50, 0xFD, 0xED, 0xB9, 0xDA, 0x5E, 0x15, 0x46, 0x57, 0xA7, 0x8D, 0x9D, 0x84],
   [0x90, 0xD8, 0xAB, 0x00, 0x8C, 0xBC, 0xD3, 0x0A, 0xF7, 0xE4, 0x58, 0x05, 0xB8, 0xB3, 0x45, 0x06],
   [0xD0, 0x2C, 0x1E, 0x8F, 0xCA, 0x3F, 0x0F, 0x02, 0xC1, 0xAF, 0xBD, 0x03, 0x01, 0x13, 0x8A, 0x6B],
   [0x3A, 0x91, 0x11, 0x41, 0x4F, 0x67, 0xDC, 0xEA, 0x97, 0xF2, 0xCF, 0xCE, 0xF0, 0xB4, 0xE6, 0x73],
   [0x96, 0xAC, 0x74, 0x22, 0xE7, 0xAD, 0x35, 0x85, 0xE2, 0xF9, 0x37, 0xE8, 0x1C, 0x75, 0xDF, 0x6E],
   [0x47, 0xF1, 0x1A, 0x71, 0x1D, 0x29, 0xC5, 0x89, 0x6F, 0xB7, 0x62, 0x0E, 0xAA, 0x18, 0xBE, 0x1B],
   [0xFC, 0x56, 0x3E, 0x4B, 0xC6, 0xD2, 0x79, 0x20, 0x9A, 0xDB, 0xC0, 0xFE, 0x78, 0xCD, 0x5A, 0xF4],
   [0x1F, 0xDD, 0xA8, 0x33, 0x88, 0x07, 0xC7, 0x31, 0xB1, 0x12, 0x10, 0x59, 0x27, 0x80, 0xEC, 0x5F],
   [0x60, 0x51, 0x7F, 0xA9, 0x19, 0xB5, 0x4A, 0x0D, 0x2D, 0xE5, 0x7A, 0x9F, 0x93, 0xC9, 0x9C, 0xEF],
   [0xA0, 0xE0, 0x3B, 0x4D, 0xAE, 0x2A, 0xF5, 0xB0, 0xC8, 0xEB, 0xBB, 0x3C, 0x83, 0x53, 0x99, 0x61],
   [0x17, 0x2B, 0x04, 0x7E, 0xBA, 0x77, 0xD6, 0x26, 0xE1, 0x69, 0x14, 0x63, 0x55, 0x21, 0x0C, 0x7D]]

/-- `SBOX[x]` (rule R195). -/
def sbox (x : Byte) : Byte :=
  (sboxRows.getD (x.toNat / 16) []).getD (x.toNat % 16) 0

/-- `INV_SBOX[x]` (rule R196). -/
def invSbox (x : Byte) : Byte :=
  (invSboxRows.getD (x.toNat / 16) []).getD (x.toNat % 16) 0

/-- `RCON[1..10]` (rule R197). -/
def rcon (i : Nat) : Byte :=
  ([0x00, 0x01, 0x02, 0x04, 0x08, 0x10, 0x20, 0x40, 0x80, 0x1B, 0x36] : Bytes).getD i 0

/-- RotWord and SubWord on a word, then `RCON[j]` into its first byte (rule R197). -/
def keyCore (j : Nat) (t : Bytes) : Bytes :=
  [sbox (byteAt t 1) ^^^ rcon j, sbox (byteAt t 2), sbox (byteAt t 3), sbox (byteAt t 0)]

/-- The round key `rk[j]` from `rk[j-1]`: the four words `w[4j..4j+3]`, each the xor of the word four before it with
the word before it, the first of them through RotWord, SubWord and RCON (rule R197). -/
def nextRoundKey (j : Nat) (rk : Bytes) : Bytes :=
  let w0 := xorBytes (slice rk 0 4) (keyCore j (slice rk 12 16))
  let w1 := xorBytes (slice rk 4 8) w0
  let w2 := xorBytes (slice rk 8 12) w1
  let w3 := xorBytes (slice rk 12 16) w2
  w0 ++ w1 ++ w2 ++ w3

/-- `rk[j]` of `KeyExpansion(key)`; `rk[0]` is the key itself (rule R197). -/
def roundKey (key : Bytes) : Nat → Bytes
  | 0 => key
  | j + 1 => nextRoundKey (j + 1) (roundKey key j)

/-- `KeyExpansion(key)`: the 11 round keys (rule R197), recomputed by every operation. -/
def keyExpansion (key : Bytes) : List Bytes :=
  (List.range 11).map (roundKey key)

/-- SubBytes (rule R198). -/
def subBytes (s : Bytes) : Bytes :=
  s.map sbox

/-- InvSubBytes (rule R199). -/
def invSubBytes (s : Bytes) : Bytes :=
  s.map invSbox

/-- ShiftRows: `s'[r][c] = s[r][(c + r) mod 4]` (rule R198). -/
def shiftRows (s : Bytes) : Bytes :=
  (List.range 16).map fun i => byteAt s (i % 4 + 4 * ((i / 4 + i % 4) % 4))

/-- InvShiftRows: `s'[r][c] = s[r][(c - r) mod 4]` (rule R199). -/
def invShiftRows (s : Bytes) : Bytes :=
  (List.range 16).map fun i => byteAt s (i % 4 + 4 * ((i / 4 + 4 - i % 4) % 4))

/-- MixColumns on one column (rule R198). -/
def mixColumn (a0 a1 a2 a3 : Byte) : Bytes :=
  [gmul a0 2 ^^^ gmul a1 3 ^^^ a2 ^^^ a3,
   a0 ^^^ gmul a1 2 ^^^ gmul a2 3 ^^^ a3,
   a0 ^^^ a1 ^^^ gmul a2 2 ^^^ gmul a3 3,
   gmul a0 3 ^^^ a1 ^^^ a2 ^^^ gmul a3 2]

/-- InvMixColumns on one column (rule R199). -/
def invMixColumn (a0 a1 a2 a3 : Byte) : Bytes :=
  [gmul a0 14 ^^^ gmul a1 11 ^^^ gmul a2 13 ^^^ gmul a3 9,
   gmul a0 9 ^^^ gmul a1 14 ^^^ gmul a2 11 ^^^ gmul a3 13,
   gmul a0 13 ^^^ gmul a1 9 ^^^ gmul a2 14 ^^^ gmul a3 11,
   gmul a0 11 ^^^ gmul a1 13 ^^^ gmul a2 9 ^^^ gmul a3 14]

/-- A function of a column on every column of a block. -/
def mapColumns (f : Byte → Byte → Byte → Byte → Bytes) : Bytes → Bytes
  | a0 :: a1 :: a2 :: a3 :: rest => f a0 a1 a2 a3 ++ mapColumns f rest
  | _ => []

/-- MixColumns (rule R198). -/
def mixColumns (s : Bytes) : Bytes :=
  mapColumns mixColumn s

/-- InvMixColumns (rule R199). -/
def invMixColumns (s : Bytes) : Bytes :=
  mapColumns invMixColumn s

/-- A round of `Cipher` other than the last (rule R198). -/
def cipherRound (s rk : Bytes) : Bytes :=
  xorBytes (mixColumns (shiftRows (subBytes s))) rk

/-- `Cipher(rk, in)` for one block: ten rounds, the last without MixColumns (rule R198). -/
def cipher (rk : List Bytes) (input : Bytes) : Bytes :=
  let s := ((rk.drop 1).take 9).foldl cipherRound (xorBytes input (rk.getD 0 []))
  xorBytes (shiftRows (subBytes s)) (rk.getD 10 [])

/-- A round of `InvCipher` other than the last (rule R199). -/
def invCipherRound (s rk : Bytes) : Bytes :=
  invMixColumns (xorBytes (invSubBytes (invShiftRows s)) rk)

/-- `InvCipher(rk, in)` for one block: the round keys 10, 9 down to 1, and 0 (rule R199). -/
def invCipher (rk : List Bytes) (input : Bytes) : Bytes :=
  let s := ((rk.drop 1).take 9).reverse.foldl invCipherRound (xorBytes input (rk.getD 10 []))
  xorBytes (invSubBytes (invShiftRows s)) (rk.getD 0 [])

/-- A function of a block on each of `n` consecutive 16-byte blocks (ECB, rule R192). -/
def mapBlocks (f : Bytes → Bytes) : Nat → Bytes → Bytes
  | 0, _ => []
  | n + 1, data => f (data.take aesBlockBytes) ++ mapBlocks f n (data.drop aesBlockBytes)

/-- `AES_ENC(key, data)`: EncryptionFailure unless the key is 16 bytes and the data a whole number of blocks
(rules R190 and R192). -/
def aesEncrypt (key data : Bytes) : Except Status Bytes :=
  if key.length = aesKeyBytes ∧ data.length % aesBlockBytes = 0 then
    .ok (mapBlocks (cipher (keyExpansion key)) (data.length / aesBlockBytes) data)
  else .error .encryptionFailure

/-- `AES_DEC(key, data)`: DecryptionFailure under the same constraints (rules R191 and R192). -/
def aesDecrypt (key data : Bytes) : Except Status Bytes :=
  if key.length = aesKeyBytes ∧ data.length % aesBlockBytes = 0 then
    .ok (mapBlocks (invCipher (keyExpansion key)) (data.length / aesBlockBytes) data)
  else .error .decryptionFailure

end Sys2Proof.Machine
end

