-- ==== Sys2Proof/Machine/Crc.lean ====
section
/-! DEFINITION. The CRC-16 unit and the byte stuffer (spec/40_crc_stuffing.md): pure functions, shared by the codec and the
session. -/

namespace Sys2Proof.Machine

/-- One shift of the CRC register: "shift left, XORing in poly 0x8005 whenever the top bit is set before the shift"
(rule R140). -/
def crcShift (crc : CrcWord) : CrcWord :=
  if crc.getLsbD 15 then (crc <<< 1) ^^^ crcPoly else crc <<< 1

/-- `n` shifts. -/
def crcShifts : Nat → CrcWord → CrcWord
  | 0, crc => crc
  | n + 1, crc => crcShifts n (crcShift crc)

/-- One byte into the register: xor into bits 15:8, then eight shifts (rule R140). -/
def crcByte (crc : CrcWord) (b : Byte) : CrcWord :=
  crcShifts 8 (crc ^^^ (b.setWidth 16 <<< 8))

/-- The register after the bytes of a string, from a given register value, left to right (rules R140 and R142 (a)). -/
def crcFrom (crc : CrcWord) (s : Bytes) : CrcWord :=
  s.foldl crcByte crc

/-- `crc16_val(s)`: seed 0xFFFF, no reflection, no final xor (rule R140). -/
def crc16Val (s : Bytes) : CrcWord :=
  crcFrom crcSeed s

/-- `crc16(s)`: the value's two bytes, low byte first (rules R140 and R106). -/
def crc16 (s : Bytes) : Bytes :=
  le16 (crc16Val s)

/-- `stuff(s)`: every 0x7F is followed by one more 0x7F (rule R145). -/
def stuff : Bytes → Bytes
  | [] => []
  | b :: bs => if b = stx then stx :: stx :: stuff bs else b :: stuff bs

/-- `unstuff(t)`, the exact inverse of `stuff`, defined on its image only (rule R147; U6).  The block has no such
operation. -/
def unstuff : Bytes → Option Bytes
  | [] => some []
  | [b] => if b = stx then none else some [b]
  | b :: c :: bs =>
    if b = stx then
      if c = stx then (unstuff bs).map (stx :: ·) else none
    else (unstuff (c :: bs)).map (b :: ·)

end Sys2Proof.Machine
end

