-- ==== Sys2Proof/Machine/Codec.lean ====
section
/-! DEFINITION. The Packet Codec (spec/43_packet_codec.md): `buildPacket` and `extractPacket`, pure functions of their
operands and of the padding draw (rules R25 and R222). -/

namespace Sys2Proof.Machine

/-- The padding length `p = (16 - ((n + 7) mod 16)) mod 16` of a payload of `n` bytes (rule R113). -/
def padLen (n : Nat) : Nat :=
  (16 - (n + 7) % 16) % 16

/-- `eLENGTH | eCOUNT | payload | padding | eCRC_LO | eCRC_HI`, the inner plaintext (rule R111).  A `payload` is at
most 233 bytes where this is used. -/
def innerPlain (eCount : Count) (payload pad : Bytes) : Bytes :=
  let inner := [BitVec.ofNat 8 payload.length] ++ le32 eCount ++ payload ++ pad
  inner ++ crc16 inner

/-- Steps 1 to 3 of BUILD up to the draw: how many padding bytes it draws, or the error it raises before that
(rules R220, R221 and R224). -/
def buildPadLen (reqArgs : Bool) (args : Bytes) (key : Option Bytes) : Except Status Nat :=
  if reqArgs && args.isEmpty then .error .argsRequired
  else
    match key with
    | some _ => if args.length + 1 > 233 then .error .payloadTooLong else .ok (padLen (args.length + 1))
    | none => if args.length + 1 > 255 then .error .payloadTooLong else .ok 0

/-- DATA of a packet: the payload, or `[0x7E] ++ AES_ENC(k, inner ++ crc16(inner))` (rules R105, R110 and R222). -/
def buildData (payload : Bytes) (key : Option Bytes) (eCount : Count) (pad : Bytes) : Except Status Bytes :=
  match key with
  | none => .ok payload
  | some k =>
    match aesEncrypt k (innerPlain eCount payload pad) with
    | .ok c => .ok (stex :: c)
    | .error e => .error e

/-- Steps 4 and 5 of BUILD, as far as the frame goes: `core = [seqByte, len(data)] ++ data`, then `core ++ crc16(core)`
(rules R116 and R223). -/
def packetBody (seqByte : Byte) (data : Bytes) : Bytes :=
  let core := [seqByte, BitVec.ofNat 8 data.length] ++ data
  core ++ crc16 core

/-- The packet as it goes on the wire: `[0x7F] ++ stuff(packet)` (rules R102 and R223). -/
def wirePacket (seqByte : Byte) (data : Bytes) : Bytes :=
  stx :: stuff (packetBody seqByte data)

/-- BUILD (rule R220): the wire bytes of one packet, given the padding bytes drawn (rule R222). -/
def buildPacket (reqArgs : Bool) (code : Byte) (args : Bytes) (seqByte : Byte) (key : Option Bytes) (eCount : Count)
    (pad : Bytes) : Except Status Bytes :=
  match buildPadLen reqArgs args key with
  | .error e => .error e
  | .ok _ =>
    match buildData (code :: args) key eCount pad with
    | .error e => .error e
    | .ok data => .ok (wirePacket seqByte data)

/-- DATA of a frame `f`, `f[3 : 3+L]` with `L = f[2]` (rule R78). -/
def frameData (f : Bytes) : Bytes :=
  slice f 3 (3 + (byteAt f 2).toNat)

/-- Steps 1 and 2 of EXTRACT: the start marker, the length and the CRC (rules R230, R231 and R143). -/
def checkFrame (f : Bytes) : Except Status Bytes :=
  if f.length = 0 ∨ byteAt f 0 ≠ stx then .error .unknownResponse
  else
    let len := (byteAt f 2).toNat
    if f.length < 5 ∨ f.length ≠ len + 5 then .error .crcMismatch
    else if crc16 (slice f 1 (3 + len)) ≠ slice f (3 + len) (5 + len) then .error .crcMismatch
    else .ok (frameData f)

/-- DATA begins with the encrypted marker (rule R112). -/
def isEnvelope (data : Bytes) : Bool :=
  data.head? == some stex

/-- Step 3 of EXTRACT: decrypt, then the counter, then the inner length; the inner CRC is not verified
(rules R232, R233 and R412). -/
def openEnvelope (k : Bytes) (eCount : Count) (c : Bytes) : Except Status Bytes :=
  if c.length = 0 then .error .decryptionFailure
  else
    match aesDecrypt k c with
    | .error e => .error e
    | .ok t =>
      if fromLe (slice t 1 5) ≠ (eCount + 1).toNat then .error .counterMismatch
      else if (byteAt t 0).toNat + 7 > t.length then .error .decryptionFailure
      else .ok (slice t 5 (5 + (byteAt t 0).toNat))

/-- EXTRACT (rule R230): the plain payload of a frame. -/
def extractPacket (f : Bytes) (key : Option Bytes) (eCount : Count) : Except Status Bytes :=
  match checkFrame f with
  | .error e => .error e
  | .ok data =>
    match key with
    | none => .ok data
    | some k => if isEnvelope data then openEnvelope k eCount (data.drop 1) else .ok data

end Sys2Proof.Machine
end

