-- ==== Sys2Proof/Machine/Operands.lean ====
section
/-! DEFINITION. The operands the operations form from registers and parameters: the outbound sequence byte, the key a
session operation gives the codec, the applicability of encryption, and the command descriptor the host looks up. -/

namespace Sys2Proof.Machine

/-- `seq_byte(SEQ, DEVICE_ID) = SEQ * 0x80 + DEVICE_ID` (rule R103). -/
def seqByte (seq : Bool) (deviceId : BitVec 4) : Byte :=
  (if seq then 0x80 else 0x00) + deviceId.setWidth 8

/-- The sequence byte EXEC sends (rule R251 step 5). -/
def outboundSeq (s : State) : Byte :=
  seqByte s.seq s.cfg.deviceId

/-- `KEYV ? some(KEY) : none` (rules R255 and R266). -/
def sessionKey (s : State) : Option Bytes :=
  if s.keyV then some s.key else none

/-- Encryption applicability: "sessionKeyEstablished AND (commandRequiresEncryption OR globalEncryptAllFlag)"
(rule R252). -/
def encryptionApplies (flags : CmdFlags) (s : State) : Bool :=
  s.keyV && (flags.reqEnc || s.cfg.encryptAll)

/-- The key EXEC gives BUILD (rule R251 steps 3 and 5). -/
def commandKey (flags : CmdFlags) (s : State) : Option Bytes :=
  if encryptionApplies flags s then some s.key else none

/-- The descriptor and the code of a command of the host's table; `known` is 0 where the name is absent (rule R321).
The rules give only `known` and `isSync` then; the code 0 and the two bits 0 are the model's (DESIGN CHOICE, log entry 28). -/
def commandDescriptor (cfg : Config) (name : CommandName) : CmdFlags × Byte :=
  match cfg.commands.find? (fun row => row.1 == name) with
  | some row => (⟨true, row.2.requiresArgs, row.2.requiresEncryption, name == .sync⟩, row.2.numericCode)
  | none => (⟨false, false, false, name == .sync⟩, 0)

/-- The port an operation belongs to (the table of rule R120). -/
def portOf : Instr → Port
  | .crc16 .. => .cmd
  | .stuff .. => .cmd
  | .aesEnc .. => .cmd
  | .aesDec .. => .cmd
  | .build .. => .cmd
  | .extract .. => .cmd
  | .exec .. => .cmd
  | .keyInstall .. => .cmd
  | .keyClear => .cmd
  | .rxByte .. => .rxd
  | .rxFlush => .rxd
  | .rxChunk .. => .rxd
  | .frameIn .. => .internal
  | .timeout => .tmo
  | .genKeypair => .host
  | .deriveKey .. => .host
  | .initEncryption => .host
  | .enable => .host
  | .disable => .host
  | .poll .. => .host

/-- The bytes the `sample` codec makes of a command's arguments: the numbers of the key exchange as eight
little-endian bytes, every other argument as one byte (`[from general knowledge, not in source]`, G7). -/
def sampleEncode (name : CommandName) (args : List Nat) : Bytes :=
  match name with
  | .setGenerator => args.flatMap fun n => le64 (BitVec.ofNat 64 n)
  | .setModulus => args.flatMap fun n => le64 (BitVec.ofNat 64 n)
  | .requestKeyExchange => args.flatMap fun n => le64 (BitVec.ofNat 64 n)
  | _ => args.map (BitVec.ofNat 8)

/-- What the `sample` codec reads of a response: `F0` is OK and the device's eight bytes follow it
(`[from general knowledge, not in source]`, G3 and G7). -/
def sampleDecode (payload : Bytes) : Decoded :=
  { success := payload.head? == some 0xF0
    status := byteAt payload 0
    info := { interKey := payload.drop 1, protocolVersion := none, unitType := none, events := [], others := [] } }

/-- `encode(commandName, args, protocolVersion)`; `none` where it fails (rule R322). -/
def encodeArgs (cfg : Config) (name : CommandName) (args : List Nat) (protocolVersion : Option Nat) : Option Bytes :=
  match cfg.codec with
  | .external => Config.encodeArgs name args protocolVersion
  | .sample => some (sampleEncode name args)
  | .rejecting => none

/-- `decode(plainPayload, commandName, protocolVersion, unitType)` (rule R322). -/
def decodeResponse (cfg : Config) (payload : Bytes) (name : CommandName) (protocolVersion unitType : Option Nat) :
    Decoded :=
  match cfg.codec with
  | .external => Config.decodeResponse payload name protocolVersion unitType
  | .sample => sampleDecode payload
  | .rejecting => sampleDecode payload

end Sys2Proof.Machine
end

