-- ==== Sys2Proof/Machine/Ops.lean ====
section
/-! DEFINITION. The named operations over the registers and buffers: every write of the block's state goes through one of
them.  Taking an exception (the `fail` path of the retry sequencer, rules R258 and R372 of the spec) and the two
returns from one (the resend, rule R373, and `complete`, rule R259) stand here once, for all operations. -/

namespace Sys2Proof.Machine

/-! ### Ports -/

/-- `emit PORT(v)` (rule R17). -/
def State.emit (s : State) (o : Output) : State :=
  { s with out := s.out ++ [o] }

/-- `emit RES(r)` (rule R122). -/
def State.respond (s : State) (r : Res) : State :=
  s.emit (.res r)

/-- `emit TXD(TXBUF[0:TXLEN])`, one write of the whole packet (rules R70 and R76). -/
def State.transmit (s : State) : State :=
  s.emit (.txd s.txBuf)

/-- A pure operation's answer on RES: its result, or the error it raised (rules R122 and R352). -/
def State.answer (s : State) (r : Except Status Bytes) : State :=
  match r with
  | .ok data => s.respond (.ok data)
  | .error e => s.respond (.error e)

/-! ### Frame Decoder registers -/

/-- The decoder's three registers at once: RXS and `RXBUF[0:RXLEN]` (rules R21, R22 and R70). -/
def State.setRx (s : State) (rxs : RxState) (buf : Bytes) : State :=
  { s with rxs := rxs, rxBuf := buf }

/-! ### Session registers -/

/-- SEQ (rule R26). -/
def State.setSeq (s : State) (b : Bool) : State :=
  { s with seq := b }

/-- ECOUNT <- (ECOUNT + 1) mod 2^32 (rules R27 and R257). -/
def State.countUp (s : State) : State :=
  { s with eCount := s.eCount + 1 }

/-- KEY <- key; KEYV <- 1 (rule R263). -/
def State.loadKey (s : State) (key : Bytes) : State :=
  { s with key := key, keyV := true }

/-- KEYV <- 0; ECOUNT <- 0; KEY keeps its bits (rule R264). -/
def State.dropKey (s : State) : State :=
  { s with keyV := false, eCount := 0 }

/-- TXBUF, TXLEN and OSEQ of a new command; ATTEMPT <- 1; LASTCAUSE <- none (rule R251 step 6). -/
def State.newCommand (s : State) (packet : Bytes) (sb : Byte) : State :=
  { s with txBuf := packet, oSeq := sb, attempt := 1, lastCause := .ok }

/-- The start of an attempt: PROC <- 1; TMR <- 1 (rule R254). -/
def State.arm (s : State) : State :=
  { s with proc := true, tmr := true }

/-- The cleanup of every exit path: TMR <- 0; PROC <- 0 (rules R258, R259 and R261). -/
def State.disarm (s : State) : State :=
  { s with proc := false, tmr := false }

/-- SESS (rule R30). -/
def State.setSess (s : State) (x : SessState) : State :=
  { s with sess := x }

/-- LASTCAUSE (rule R35). -/
def State.setCause (s : State) (c : Status) : State :=
  { s with lastCause := c }

/-- ATTEMPT <- ATTEMPT + 1 (rule R258). -/
def State.nextAttempt (s : State) : State :=
  { s with attempt := s.attempt + 1 }

/-! ### The host's variables, the inputs, the draws -/

/-- The host's side as a whole. -/
def State.setHost (s : State) (h : HostSide) : State :=
  { s with host := h }

/-- The inputs still to come. -/
def State.setInbox (s : State) (inputs : List Input) : State :=
  { s with inbox := inputs }

/-- What is left of the draws. -/
def State.setDraws (s : State) (queued : List Nat) (used : Nat) : State :=
  { s with draws := queued, drawCount := used }

/-- One draw: the next queued one, or the free value (rule R17; U1, U2, U3; log entry 4). -/
def State.draw (s : State) : Nat × State :=
  match s.draws with
  | n :: rest => (n, s.setDraws rest s.drawCount)
  | [] => (Config.draw s.drawCount, s.setDraws [] (s.drawCount + 1))

/-- `draw n bytes` (rules R17 and R222). -/
def State.drawBytes : Nat → State → Bytes × State
  | 0, s => ([], s)
  | n + 1, s =>
    let d := s.draw
    let r := State.drawBytes n d.2
    (BitVec.ofNat 8 d.1 :: r.1, r.2)

/-! ### Taking an exception and returning from it -/

/-- The attempt's failure recorded: "TMR <- 0; PROC <- 0; LASTCAUSE <- c" (rules R258 and R372). -/
def State.enterFailure (s : State) (c : Status) : State :=
  s.disarm.setCause c

/-- The return that retries: ATTEMPT + 1, PROC and TMR set, the same bytes written (rules R258, R260 and R373). -/
def State.resend (s : State) : State :=
  s.nextAttempt.arm.transmit

/-- The return that ends the command: SESS <- IDLE and `RES(CommandFailedAfterRetries, ATTEMPT, c)`
(rules R258 and R362). -/
def State.giveUp (s : State) (c : Status) : State :=
  (s.setSess .idle).respond (.commandFailed s.attempt c)

/-- `fail(c)`: an attempt did not yield an accepted frame (rule R258). -/
def failAttempt (c : Status) (s : State) : State :=
  let s1 := s.enterFailure c
  if s.attempt ≥ s.cfg.commandRetries.val then s1.giveUp c else s1.resend

/-- `complete(p)`: a frame was accepted (rule R259).  SEQ is inverted from its current value. -/
def completeCommand (p : Bytes) (s : State) : State :=
  ((s.disarm.setSess .idle).setSeq (!s.seq)).respond (.completed p)

/-- The answer to a malformed CMD record: IllegalOp, no state change (rules R123 and R368). -/
def illegalOp (s : State) : State :=
  s.respond (.error .illegalOp)

end Sys2Proof.Machine
end

