-- ==== Sys2Proof/Machine/Pure.lean ====
section
/-! DEFINITION. The pure operations of format P: CRC16, STUFF, AES_ENC, AES_DEC, BUILD, EXTRACT.  They read and write no
register and are admitted whatever PROC is (rule R269); each answers with one RES record. -/

namespace Sys2Proof.Machine

open Host (Outcome)

/-- CRC16 (rule R141). -/
def execCrc16 (data : Bytes) (s : State) : Outcome State Fault Refusal :=
  .next (s.respond (.ok (crc16 data)))

/-- STUFF (rule R148). -/
def execStuff (data : Bytes) (s : State) : Outcome State Fault Refusal :=
  .next (s.respond (.ok (stuff data)))

/-- AES_ENC (rule R190). -/
def execAesEnc (key data : Bytes) (s : State) : Outcome State Fault Refusal :=
  .next (s.answer (aesEncrypt key data))

/-- AES_DEC (rule R191). -/
def execAesDec (key data : Bytes) (s : State) : Outcome State Fault Refusal :=
  .next (s.answer (aesDecrypt key data))

/-- The BUILD of an operand list, with its draw of padding bytes (rules R220 and R222). -/
def buildWithDraw (reqArgs : Bool) (code : Byte) (args : Bytes) (seqByte : Byte) (key : Option Bytes) (eCount : Count)
    (s : State) : Except Status Bytes × State :=
  match buildPadLen reqArgs args key with
  | .error e => (.error e, s)
  | .ok p =>
    let d := s.drawBytes p
    (buildPacket reqArgs code args seqByte key eCount d.1, d.2)

/-- BUILD (rule R220).  It ignores `known`, `reqEnc` and `isSync` (rule R121); a key operand that is not 16 bytes is an
illegal record (rule R123). -/
def execBuild (flags : CmdFlags) (code seqByte : Byte) (key : Option Bytes) (eCount : Count) (args : Bytes)
    (s : State) : Outcome State Fault Refusal :=
  .next (if wfOptKey key then
    let r := buildWithDraw flags.reqArgs code args seqByte key eCount s
    r.2.answer r.1
  else illegalOp s)

/-- EXTRACT (rule R230).  A key operand that is not 16 bytes is an illegal record (rule R123). -/
def execExtract (frame : Bytes) (key : Option Bytes) (eCount : Count) (s : State) : Outcome State Fault Refusal :=
  .next (if wfOptKey key then s.answer (extractPacket frame key eCount) else illegalOp s)

end Sys2Proof.Machine
end

