-- ==== Sys2Proof/Machine/Session.lean ====
section
/-! DEFINITION. The session state machine (spec/44_session.md): EXEC, FRAME_IN, TIMEOUT, KEY_INSTALL, KEY_CLEAR. -/

namespace Sys2Proof.Machine

open Host (Outcome)

/-- A refused EXEC: the error on RES, nothing on TXD (rule R251). -/
def refuseCommand (e : Status) (s : State) : State × Status :=
  (s.respond (.error e), e)

/-- Step 6 of EXEC: the packet, the registers of a new command, the first attempt, the admission on RES
(rules R251 and R254). -/
def admitCommand (packet : Bytes) (sb : Byte) (s : State) : State × Status :=
  ((((s.newCommand packet sb).arm.setSess .awaiting).transmit).respond (.ok []), .ok)

/-- Steps 3 to 6 of EXEC: the packet is built and the command admitted, or BUILD's error refuses it (rule R251). -/
def sendCommand (flags : CmdFlags) (code : Byte) (args : Bytes) (s : State) : State × Status :=
  let sb := outboundSeq s
  let r := buildWithDraw flags.reqArgs code args sb (commandKey flags s) s.eCount s
  match r.1 with
  | .error e => refuseCommand e r.2
  | .ok packet => admitCommand packet sb r.2

/-- EXEC's whole effect, with the status of its record: `ok` when the command was admitted (rules R251, R253 and
R269). -/
def startCommand (flags : CmdFlags) (code : Byte) (args : Bytes) (s : State) : State × Status :=
  if s.proc then refuseCommand .alreadyProcessing s
  else if !flags.known then refuseCommand .unknownCommand s
  else if flags.reqEnc && !s.keyV then refuseCommand .encryptionRequired s
  else sendCommand flags code args (if flags.isSync then s.setSeq true else s)

/-- EXEC (rule R251). -/
def execExec (flags : CmdFlags) (code : Byte) (args : Bytes) (s : State) : Outcome State Fault Refusal :=
  .next (startCommand flags code args s).1

/-- KEY_INSTALL's effect: KEY <- key; KEYV <- 1; RES(OK) (rule R263). -/
def installKey (key : Bytes) (s : State) : State :=
  (s.loadKey key).respond (.ok [])

/-- KEY_INSTALL (rule R263).  "A `key` operand that is not 16 bytes is an illegal record". -/
def execKeyInstall (key : Bytes) (s : State) : Outcome State Fault Refusal :=
  .next (if wfKey key then installKey key s else illegalOp s)

/-- KEY_CLEAR's effect: KEYV <- 0; ECOUNT <- 0; RES(OK) (rule R264). -/
def clearKey (s : State) : State :=
  s.dropKey.respond (.ok [])

/-- KEY_CLEAR (rule R264). -/
def execKeyClear (s : State) : Outcome State Fault Refusal :=
  .next (clearKey s)

/-- "A key is active" and "envelope marker present" (rule R257). -/
def countsUp (f : Bytes) (s : State) : Bool :=
  s.keyV && (decide (1 ≤ (byteAt f 2).toNat) && byteAt f 3 == stex)

/-- FRAME_IN's effect (rules R255 to R257 and R265): the sequence byte first, then EXTRACT, then the counter. -/
def frameIn (f : Bytes) (s : State) : State :=
  match s.sess with
  | .idle => s
  | .awaiting =>
    if f.length < 2 ∨ byteAt f 1 ≠ s.oSeq then failAttempt .sequenceMismatch s
    else
      match extractPacket f (sessionKey s) s.eCount with
      | .error e => failAttempt e s
      | .ok p => completeCommand p (if countsUp f s then s.countUp else s)

/-- FRAME_IN (rule R255), the hand-off of a candidate frame. -/
def execFrameIn (frame : Bytes) (s : State) : Outcome State Fault Refusal :=
  .next (frameIn frame s)

/-- TIMEOUT (rule R262).  "When TMR = 0 the TIMER agent has no step": nothing happens then (DEDUCED, log entry 7). -/
def execTimeout (s : State) : Outcome State Fault Refusal :=
  .next (if s.tmr then failAttempt .timeout s else s)

end Sys2Proof.Machine
end

