-- ==== Sys2Proof/Machine/KeyAgreement.lean ====
section
/-! DEFINITION. Key agreement on the host's side (spec/45_key_agreement.md): modular exponentiation, GEN_KEYPAIR, DERIVE_KEY.
They write the host's variables only; the block is unchanged. -/

namespace Sys2Proof.Machine

open Host (Outcome)

/-- The loop of square-and-multiply (rule R301), `fuel` turns at most. -/
def modexpLoop : Nat → Nat → Nat → Nat → Nat → Nat
  | 0, r, _, _, _ => r
  | fuel + 1, r, x, e, m =>
    if e = 0 then r
    else modexpLoop fuel (if e % 2 = 1 then r * x % m else r) (x * x % m) (e / 2) m

/-- `modexp(b, e, m)`, on unbounded integers (rules R301 and R305).  For `m = 0`, where the spec states no result, it is
the free value `Config.modexpZero` (log entry 8). -/
def modexp (b e m : Nat) : Nat :=
  if m = 0 then Config.modexpZero b e else modexpLoop (Nat.log2 e + 1) (1 % m) (b % m) e m

/-- `(generator, modulus)` of two drawn primes: `generator ≥ modulus` by swapping, and the zero check (rule R300). -/
def orderPrimes (p1 p2 : Nat) : Except Status (Nat × Nat) :=
  let generator := if p1 ≥ p2 then p1 else p2
  let modulus := if p1 ≥ p2 then p2 else p1
  if generator = 0 ∨ modulus = 0 then .error .keyExchangeFailure else .ok (generator, modulus)

/-- A drawn prime, "of 16-bit magnitude": below 2^16 (rule R300; U2; log entry 4). -/
def drawnPrime (n : Nat) : Nat :=
  n % 2 ^ 16

/-- The drawn `hostRandom`, "in [0, 2^31)" (rule R300; U3). -/
def drawnExponent (n : Nat) : Nat :=
  n % 2 ^ 31

/-- The composed AES key: `le64(FIXED_KEY) ++ le64(key)` (rules R114 and R303). -/
def composeKey (fixedKey : BitVec 64) (key : Nat) : Bytes :=
  le64 fixedKey ++ le64 (BitVec.ofNat 64 key)

/-- What DERIVE_KEY returns (rule R302): `slaveInterKey`, `key` and `encryptKey`. -/
structure DerivedKey where
  slaveInterKey : Nat
  key : Nat
  encryptKey : Bytes
  deriving DecidableEq, Repr

/-- DERIVE_KEY's result (rule R302). -/
def deriveSessionKey (bytes : Bytes) (fixedKey : BitVec 64) (hostRandom modulus : Nat) : Except Status DerivedKey :=
  if bytes.length ≠ 8 then .error .keyExchangeFailure
  else
    let key := modexp (fromLe bytes) hostRandom modulus
    .ok ⟨fromLe bytes, key, composeKey fixedKey key⟩

/-- A host procedure or function returned. -/
def State.addResult (s : State) (r : HostResult) : State :=
  s.setHost { s.host with results := s.host.results ++ [r] }

/-- The host's four variables of a fresh key pair (rules R300 and R304). -/
def State.storeKeyPair (s : State) (kp : KeyPair) : State :=
  s.setHost
    { s.host with
      generator := some kp.generator
      modulus := some kp.modulus
      hostRandom := some kp.hostRandom
      hostInter := some kp.hostInter }

/-- The host's `slaveInterKey` and `key` (rules R302 and R304). -/
def State.storeDerived (s : State) (d : DerivedKey) : State :=
  s.setHost { s.host with slaveInterKey := some d.slaveInterKey, key := some d.key }

/-- GEN_KEYPAIR on the machine (rule R300): the two primes are drawn, then, past the zero check, the exponent, and the
variables are written.  A failed zero check has taken two draws and not the third: so the rule's pseudocode, although its
line of operands says "three draws" (DESIGN CHOICE between the two, log entry 4). -/
def generateKeys (s : State) : Except Status KeyPair × State :=
  let d1 := s.draw
  let d2 := d1.2.draw
  match orderPrimes (drawnPrime d1.1) (drawnPrime d2.1) with
  | .error e => (.error e, d2.2)
  | .ok (generator, modulus) =>
    let d3 := d2.2.draw
    let r := drawnExponent d3.1
    let kp : KeyPair := ⟨generator, modulus, r, modexp generator r modulus⟩
    (.ok kp, d3.2.storeKeyPair kp)

/-- GEN_KEYPAIR (rule R300). -/
def execGenKeypair (s : State) : Outcome State Fault Refusal :=
  let r := generateKeys s
  .next (r.2.addResult
    (match r.1 with
      | .ok kp => .keyPair kp
      | .error _ => .keyExchangeFailure 0 none))

/-- DERIVE_KEY (rule R302).  The KEY_INSTALL that the host issues next is an operation of its own. -/
def execDeriveKey (bytes : Bytes) (fixedKey : BitVec 64) (hostRandom modulus : Nat) (s : State) :
    Outcome State Fault Refusal :=
  .next
    (match deriveSessionKey bytes fixedKey hostRandom modulus with
      | .ok d => (s.storeDerived d).addResult (.derived d.slaveInterKey d.key d.encryptKey)
      | .error _ => s.addResult (.keyExchangeFailure 0 none))

end Sys2Proof.Machine
end

