-- ==== Sys2Proof/Machine/HostSide.lean ====
section
/-! DEFINITION. The host's procedures (spec/46_host_sequences.md): INIT_ENCRYPTION, ENABLE, DISABLE, POLL, the poll cycle, and
the commands the host issues by name.  A procedure runs, as one step of the HOST agent, up to the next point where it waits
(for its command's final RES record, for PROC = 0, or for its turn to issue its next command); there it stands in the list
of tasks until the host goes on with it (log entry 9).  No step issues more than one CMD operation (rule R80 (c)). -/

namespace Sys2Proof.Machine

open Host (Outcome)

/-- A procedure begins to wait. -/
def State.addTask (s : State) (t : Task) : State :=
  s.setHost { s.host with tasks := s.host.tasks ++ [t] }

/-- The procedure number `k` no longer waits. -/
def State.dropTask (s : State) (k : Nat) : State :=
  s.setHost { s.host with tasks := s.host.tasks.eraseIdx k }

/-- Events to the sink (rule R323). -/
def State.notify (s : State) (es : List HostEvent) : State :=
  s.setHost { s.host with events := s.host.events ++ es }

/-- The flag `enabled` (rule R41 (f)). -/
def State.setEnabled (s : State) (b : Bool) : State :=
  s.setHost { s.host with enabled := b }

/-- The flag `polling` and whether a poll cycle is scheduled (rules R41 (g), R327 and R328). -/
def State.setPolling (s : State) (polling scheduled : Bool) : State :=
  s.setHost { s.host with polling := polling, pollScheduled := scheduled }

/-- What the host learned of the device (rules R38 and R329). -/
def State.setLearned (s : State) (protocolVersion unitType : Option Nat) : State :=
  s.setHost { s.host with protocolVersion := protocolVersion, unitType := unitType }

/-- `exec(name, args)` up to its wait: the arguments encoded, the name looked up, EXEC issued (rules R321 and R322).  The
outcome stands beside the state where the command has ended already: "an `encode` that fails does so before the block has
seen the command", and EXEC may refuse it. -/
def issueExec (name : CommandName) (args : List Nat) (s : State) : State × Option CmdOutcome :=
  match encodeArgs s.cfg name args s.host.protocolVersion with
  | none => (s, some .encodeFailed)
  | some bytes =>
    let d := commandDescriptor s.cfg name
    let r := startCommand d.1 d.2 bytes s
    match r.2 with
    | .ok => (r.1, none)
    | e => (r.1, some (.refused e))

/-- The outcome is a response that decodes to `success` (rules R324 to R326). -/
def succeeded : CmdOutcome → Bool
  | .decoded d => d.success
  | _ => false

/-- The effect of `POLL(desired)` once PROC is 0: "Requesting `true` while already running is a no-op. Requesting `false`
cancels any scheduled next poll" (rule R327). -/
def applyPoll (desired : Bool) (s : State) : State :=
  if desired then (if s.host.polling then s else s.setPolling true true) else s.setPolling false false

/-- ENABLE returns, after the POLL it made; a POLL of its own returns nothing (rules R325 and R327). -/
def returnEnabling (enabling : Option CmdOutcome) (s : State) : State :=
  match enabling with
  | none => s
  | some o => s.addResult (.command .enable o)

/-- `POLL(desired)`, the host's own or ENABLE's: it waits while a command is in flight (rule R327). -/
def requestPoll (desired : Bool) (enabling : Option CmdOutcome) (s : State) : State :=
  if s.proc then s.addTask (.pollWait desired enabling) else returnEnabling enabling (applyPoll desired s)

/-- The command of step `n` of INIT_ENCRYPTION (rule R324). -/
def initCommand (n : Nat) : CommandName :=
  if n = 1 then .setGenerator else if n = 2 then .setModulus else .requestKeyExchange

/-- The number that the command of step `n` carries (rule R324). -/
def initArgument (n : Nat) (kp : KeyPair) : Nat :=
  if n = 1 then kp.generator else if n = 2 then kp.modulus else kp.hostInter

/-- The rest of a poll cycle: stop and report on an error; otherwise emit the events of the response and schedule the
next cycle while polling (rule R328).  A cycle that is scheduled already stays the only one (DESIGN CHOICE, log entry 25). -/
def finishPollCycle (o : CmdOutcome) (s : State) : State :=
  match o with
  | .decoded d =>
    let s1 := s.notify (d.info.events.map .poll)
    if s1.host.polling then s1.setPolling true true else s1
  | _ => (s.setPolling false s.host.pollScheduled).notify [.error o]

/-- What a procedure does with the outcome of its command (rules R324 to R326 and R328).  A direct POLL returns its response
and emits no event: events are the poll cycle's (DESIGN CHOICE, log entry 27). -/
def finishTask (name : CommandName) (k : Continuation) (o : CmdOutcome) (s : State) : State :=
  match k with
  | .report => s.addResult (.command name o)
  | .initStep n kp =>
    if succeeded o then (if n < 3 then s.addTask (.initIssue (n + 1) kp) else s.addResult .initDone)
    else s.addResult (.keyExchangeFailure n (some o))
  | .enable =>
    if succeeded o then requestPoll true (some o) (s.setEnabled true) else s.addResult (.command name o)
  | .disable => (if succeeded o then s.setEnabled false else s).addResult (.command name o)
  | .pollCycle => finishPollCycle o s

/-- `exec(name, args)` of a procedure: the procedure waits for the command's final record, or goes on at once with the
outcome. -/
def issueCommand (name : CommandName) (args : List Nat) (k : Continuation) (s : State) : State :=
  let r := issueExec name args s
  match r.2 with
  | none => r.1.addTask (.awaiting name k r.1.out.length)
  | some o => finishTask name k o r.1

/-- Step `n` of INIT_ENCRYPTION: its command is issued (rule R324). -/
def issueInitStep (n : Nat) (kp : KeyPair) (s : State) : State :=
  issueCommand (initCommand n) [initArgument n kp] (.initStep n kp) s

/-- DISABLE after its POLL(false) has taken effect (rule R326). -/
def disableStopped (s : State) : State :=
  issueCommand .disable [] .disable (applyPoll false s)

/-- The poll reschedule timer: the scheduled cycle begins, if one is scheduled (rule R328).  A cycle that comes due while a
command is in flight issues POLL at once, as the rule's pseudocode does, and is refused; its prose says that the loop
"voluntarily defers" (DESIGN CHOICE between the two, log entry 26). -/
def pollTimer (s : State) : State :=
  if s.host.pollScheduled then
    let s1 := s.setPolling s.host.polling false
    if s1.host.polling then issueCommand .poll [] .pollCycle s1 else s1
  else s

/-- DERIVE_KEY and KEY_INSTALL on the response of REQUEST_KEY_EXCHANGE (rule R329); the error where the device's value
is not 8 bytes, or the host holds no key pair (log entry 10). -/
def keyExchangeEffect (d : Decoded) (s : State) : Except Status Unit × State :=
  match s.host.hostRandom, s.host.modulus with
  | some hostRandom, some modulus =>
    match deriveSessionKey d.info.interKey s.cfg.fixedKey hostRandom modulus with
    | .ok k => (.ok (), installKey k.encryptKey (s.storeDerived k))
    | .error e => (.error e, s)
  | _, _ => (.error .keyExchangeFailure, s)

/-- The side effects of interpreting a response (rule R329); the error when the key derivation failed. -/
def responseEffect (name : CommandName) (d : Decoded) (s : State) : Except Status Unit × State :=
  match name with
  | .requestKeyExchange => if d.success then keyExchangeEffect d s else (.ok (), s)
  | .setupRequest =>
    (.ok (), if d.success then
      s.setLearned (d.info.protocolVersion.or s.host.protocolVersion) (d.info.unitType.or s.host.unitType) else s)
  | .unitData =>
    (.ok (), if d.success then
      s.setLearned (d.info.protocolVersion.or s.host.protocolVersion) (d.info.unitType.or s.host.unitType) else s)
  | .hostProtocolVersion => (.ok (), if d.success then s else s.setLearned none s.host.unitType)
  | _ => (.ok (), s)

/-- The final record of a command among outputs: its payload, or its attempts and last cause (rule R122). -/
def finalRecord : List Output → Option (Except (Nat × Status) Bytes)
  | [] => none
  | .res (.completed p) :: _ => some (.ok p)
  | .res (.commandFailed attempts cause) :: _ => some (.error (attempts, cause))
  | _ :: rest => finalRecord rest

/-- The rest of a procedure after its command's payload: decode, the side effects, the continuation (rules R322 and R329).
A key derivation that fails raises out of the command: its outcome is that failure, and the decoded response is not returned
(rules R17 and R302). -/
def finishPayload (name : CommandName) (k : Continuation) (payload : Bytes) (s : State) : State :=
  let d := decodeResponse s.cfg payload name s.host.protocolVersion s.host.unitType
  let r := responseEffect name d s
  match r.1 with
  | .ok _ => finishTask name k (.decoded d) r.2
  | .error e => finishTask name k (.raised e) r.2

/-- The host goes on with one waiting procedure: nothing happens while what it waits for is not there. -/
def resumeTask (t : Task) (dropped s : State) : State :=
  match t with
  | .pollWait desired enabling => if s.proc then s else returnEnabling enabling (applyPoll desired dropped)
  | .disableWait => if s.proc then s else disableStopped dropped
  | .initIssue n kp => issueInitStep n kp dropped
  | .awaiting name k mark =>
    match finalRecord (s.out.drop mark) with
    | none => s
    | some (.ok payload) => finishPayload name k payload dropped
    | some (.error (attempts, cause)) => finishTask name k (.failed attempts cause) dropped

/-- The host goes on with procedure number `k`, if there is one. -/
def hostRun (k : Nat) (s : State) : State :=
  match s.host.tasks[k]? with
  | none => s
  | some t => resumeTask t (s.dropTask k) s

/-- INIT_ENCRYPTION's effect up to its first wait: GEN_KEYPAIR and KEY_CLEAR; the commands follow, each as a step of its
own; nothing of the block is changed when GEN_KEYPAIR fails (rules R324 and R80). -/
def startInitEncryption (s : State) : State :=
  let r := generateKeys s
  match r.1 with
  | .ok kp => (clearKey r.2).addTask (.initIssue 1 kp)
  | .error _ => r.2.addResult (.keyExchangeFailure 0 none)

/-- INIT_ENCRYPTION (rule R324). -/
def execInitEncryption (s : State) : Outcome State Fault Refusal :=
  .next (startInitEncryption s)

/-- ENABLE (rule R325). -/
def execEnable (s : State) : Outcome State Fault Refusal :=
  .next (issueCommand .enable [] .enable s)

/-- DISABLE: "stop polling *before* issuing the command" (rule R326). -/
def execDisable (s : State) : Outcome State Fault Refusal :=
  .next (if s.proc then s.addTask .disableWait else disableStopped s)

/-- POLL (rule R327). -/
def execPoll (desired : Bool) (s : State) : Outcome State Fault Refusal :=
  .next (requestPoll desired none s)

end Sys2Proof.Machine
end

