-- ==== Sys2Proof/Machine/Line.lean ====
section
/-! DEFINITION. The Frame Decoder (spec/41_frame_decoder.md): RX_BYTE, RX_CHUNK, RX_FLUSH.  A frame it completes is handed
to FRAME_IN in the same step (rules R76 and R160). -/

namespace Sys2Proof.Machine

open Host (Outcome)

/-- The frame under assembly has `LENGTH + 5` bytes (rules R23 and R168). -/
def frameComplete (buf : Bytes) : Bool :=
  decide (3 ≤ buf.length) && buf.length == (byteAt buf 2).toNat + 5

/-- The hand-off of the assembled frame: RXLEN <- 0; RXS <- IDLE; FRAME_IN(f) (rules R168 and R171). -/
def handOff (buf : Bytes) (s : State) : State :=
  frameIn buf (s.setRx .idle [])

/-- A byte appended to the frame, then the completion check (rules R165, R166 and R168). -/
def appendByte (b : Byte) (s : State) : State :=
  let buf := s.rxBuf ++ [b]
  if frameComplete buf then handOff buf s else s.setRx .inFrame buf

/-- RX_BYTE's effect, total on every state and every byte (rule R161). -/
def rxByte (b : Byte) (s : State) : State :=
  match s.rxs with
  | .idle => if b = stx then s.setRx .inFrame [stx] else s
  | .inFrame =>
    if b = stx then
      if s.rxBuf.length = 1 then s.setRx .idle [] else s.setRx .awaitStuff s.rxBuf
    else appendByte b s
  | .awaitStuff => if b = stx then appendByte stx s else s.setRx .inFrame [stx, b]

/-- RX_CHUNK's effect: RX_BYTE of its bytes in order (rule R170). -/
def rxChunk (data : Bytes) (s : State) : State :=
  data.foldl (fun t b => rxByte b t) s

/-- RX_FLUSH's effect: a non-empty partial frame is emitted as it is; a pending marker is lost (rule R171). -/
def rxFlush (s : State) : State :=
  if s.rxBuf.length > 0 then handOff s.rxBuf s else s.setRx .idle s.rxBuf

/-- RX_BYTE (rule R161). -/
def execRxByte (b : Byte) (s : State) : Outcome State Fault Refusal :=
  .next (rxByte b s)

/-- RX_CHUNK (rule R170). -/
def execRxChunk (data : Bytes) (s : State) : Outcome State Fault Refusal :=
  .next (rxChunk data s)

/-- RX_FLUSH (rule R171). -/
def execRxFlush (s : State) : Outcome State Fault Refusal :=
  .next (rxFlush s)

end Sys2Proof.Machine
end

