-- ==== Sys2Proof/Machine/Fetch.lean ====
section
/-! DEFINITION. What a step works on: the next input the environment presents (rules R18 and R80), its record decoded and
held against the port it came by (rules R120 and R123). -/

namespace Sys2Proof.Machine

/-- What the next input is. -/
inductive Fetched where
  /-- No agent moves. -/
  | nothing
  /-- An operation, on the state with the input taken. -/
  | operation (i : Instr) (s : State)
  /-- An input whose whole effect is the state given: an illegal CMD record, or a move of the host's procedures. -/
  | done (s : State)
  /-- A record that is no operation of its port, at a port that has no illegal records. -/
  | notAnInput (p : Port)
  deriving DecidableEq, Repr

/-- An operation record at a port: on CMD whatever is not an operation of CMD is illegal (rule R123). -/
def fetchRecord (p : Port) (bytes : Bytes) (s : State) : Fetched :=
  match decodeRecord bytes with
  | .ok i =>
    if portOf i = p then .operation i s
    else if p = .cmd then .done (illegalOp s) else .notAnInput p
  | .error _ => if p = .cmd then .done (illegalOp s) else .notAnInput p

/-- The next input is taken and read. -/
def fetch (s : State) : Fetched :=
  match s.inbox with
  | [] => .nothing
  | .record p bytes :: rest => fetchRecord p bytes (s.setInbox rest)
  | .hostExec name args :: rest => .done (issueCommand name args .report (s.setInbox rest))
  | .hostRun k :: rest => .done (hostRun k (s.setInbox rest))
  | .pollTimer :: rest => .done (pollTimer (s.setInbox rest))
  | .freeEvent e :: rest => .done ((s.setInbox rest).notify [.free e])

/-- The port at which a table word's record is presented: the port of the operation it decodes to, else CMD. -/
def portOfWord (nbits w : Nat) : Port :=
  match decodeTableWord nbits w with
  | some i => portOf i
  | none => .cmd

/-- The record of a table word as the next input. -/
def placeWord (s : State) (nbits w : Nat) : State :=
  s.setInbox (.record (portOfWord nbits w) (tableRecord nbits w) :: s.inbox)

end Sys2Proof.Machine
end

