-- ==== Sys2Proof/Machine/Dispatch.lean ====
section
/-! DEFINITION. One arm per operation of the table of rule R120: each is one direct call of the operation's meaning. -/

namespace Sys2Proof.Machine

def exec (i : Instr) (s : State) : Host.Outcome State Fault Refusal :=
  match i with
  | .crc16 data => Sys2Proof.Machine.execCrc16 data s
  | .stuff data => Sys2Proof.Machine.execStuff data s
  | .aesEnc key data => Sys2Proof.Machine.execAesEnc key data s
  | .aesDec key data => Sys2Proof.Machine.execAesDec key data s
  | .build flags code seqByte key eCount args => Sys2Proof.Machine.execBuild flags code seqByte key eCount args s
  | .extract frame key eCount => Sys2Proof.Machine.execExtract frame key eCount s
  | .exec flags code args => Sys2Proof.Machine.execExec flags code args s
  | .keyInstall key => Sys2Proof.Machine.execKeyInstall key s
  | .keyClear => Sys2Proof.Machine.execKeyClear s
  | .rxByte b => Sys2Proof.Machine.execRxByte b s
  | .rxFlush => Sys2Proof.Machine.execRxFlush s
  | .rxChunk data => Sys2Proof.Machine.execRxChunk data s
  | .frameIn frame => Sys2Proof.Machine.execFrameIn frame s
  | .timeout => Sys2Proof.Machine.execTimeout s
  | .genKeypair => Sys2Proof.Machine.execGenKeypair s
  | .deriveKey bytes fixedKey hostRandom modulus => Sys2Proof.Machine.execDeriveKey bytes fixedKey hostRandom modulus s
  | .initEncryption => Sys2Proof.Machine.execInitEncryption s
  | .enable => Sys2Proof.Machine.execEnable s
  | .disable => Sys2Proof.Machine.execDisable s
  | .poll desired => Sys2Proof.Machine.execPoll desired s

end Sys2Proof.Machine
end

