-- ==== Sys2Proof/Machine/Step.lean ====
section
/-! DEFINITION. One step of the machine: one input of one agent, or nothing where none is presented ("the block itself never
steps on its own", spec/00_scope.md rule R18). -/

namespace Sys2Proof.Machine

/-- One step (rules R18, R76 and R80).  With no input presented the state stays as it is (log entry 5). -/
def step (s : State) : Host.Outcome State Fault Refusal :=
  match fetch s with
  | .nothing => .next s
  | .operation i t => exec i t
  | .done t => .next t
  | .notAnInput p => .refused (.notAnInput p)

/-- `s` with the operation whose bits are `w` presented next, at its own port. -/
def State.withFetchWord (s : State) (nbits w : Nat) : State :=
  placeWord s nbits w

end Sys2Proof.Machine
end

