-- ==== Sys2Proof/Safety.lean ====
section
/-! DEFINITION. What counts as a sound state of the block, in the terms the statements use: the invariants the spec gives of
the decoder (spec/10_state.md rule R24) and of the session (rule R36), the bounds of the byte buffers (rules R22 and R33),
and the outputs counted by kind. -/

namespace Sys2Proof.Machine

/-- The byte buffers keep their capacities: RXBUF 260 bytes, TXBUF 519 bytes, KEY exactly 16 (rules R22, R28, R33).  The
block has no addressed memory (rule R43); these buffers are what rule R12 calls its memory. -/
abbrev Memory.wf (s : State) : Prop :=
  s.rxBuf.length ≤ rxBufCap ∧ s.txBuf.length ≤ txBufCap ∧ s.key.length = aesKeyBytes

/-- The invariants of the decoder state, (a) to (d) of rule R24. -/
abbrev DecoderInv (s : State) : Prop :=
  (s.rxs = .idle ↔ s.rxBuf = []) ∧
  (s.rxs ≠ .idle → byteAt s.rxBuf 0 = stx) ∧
  (s.rxs = .awaitStuff → 2 ≤ s.rxBuf.length) ∧
  (3 ≤ s.rxBuf.length → s.rxBuf.length < (byteAt s.rxBuf 2).toNat + 5)

/-- The invariants of the session state, (a) to (c) of rule R36, with the bound of rule R31. -/
abbrev SessionInv (s : State) : Prop :=
  (s.proc = true ↔ s.sess = .awaiting) ∧
  (s.sess = .awaiting ↔ s.tmr = true) ∧
  (s.sess = .awaiting →
    1 ≤ s.attempt ∧ 6 ≤ s.txBuf.length ∧ byteAt s.txBuf 0 = stx ∧ byteAt s.txBuf 1 = s.oSeq) ∧
  s.attempt ≤ s.cfg.commandRetries.val ∧
  s.oSeq.extractLsb' 4 3 = 0 ∧
  s.oSeq.extractLsb' 0 4 = s.cfg.deviceId

/-- A sound state: the three groups of invariants hold. -/
abbrev Sound (s : State) : Prop :=
  DecoderInv s ∧ SessionInv s ∧ Memory.wf s

/-- The packets written on TXD, oldest first. -/
def txdWrites (out : List Output) : List Bytes :=
  out.filterMap fun o =>
    match o with
    | .txd p => some p
    | .res _ => none

/-- The records emitted on RES, oldest first. -/
def resRecords (out : List Output) : List Res :=
  out.filterMap fun o =>
    match o with
    | .txd _ => none
    | .res r => some r

/-- The payloads of the commands that completed, oldest first (rule R259). -/
def completions (out : List Output) : List Bytes :=
  out.filterMap fun o =>
    match o with
    | .res (.completed p) => some p
    | _ => none

/-- `n` expiries of the command timer in a row, with no other operation between them. -/
def timeouts : Nat → State → State
  | 0, s => s
  | n + 1, s =>
    match exec .timeout s with
    | .next t => timeouts n t
    | _ => s

/-- The line delivers a byte stream in chunks, one RX_CHUNK each. -/
def chunks : List Bytes → State → State
  | [], s => s
  | c :: cs, s =>
    match exec (.rxChunk c) s with
    | .next t => chunks cs t
    | _ => s

/-- `f` is a frame that the operation gives to FRAME_IN, if it completes one: its operand, the partial frame that is flushed,
or what the decoder holds with the byte that completes it. -/
abbrev HandsOver (i : Instr) (s : State) (f : Bytes) : Prop :=
  i = .frameIn f ∨ (i = .rxFlush ∧ f = s.rxBuf) ∨ (∃ b, i = .rxByte b ∧ f = s.rxBuf ++ [b]) ∨
  ∃ before b rest u, i = .rxChunk (before ++ b :: rest) ∧ exec (.rxChunk before) s = .next u ∧ f = u.rxBuf ++ [b]

/-- Every register, the host's side and the waiting inputs are the same in both states; the outputs and the draws may
differ (rules R25 and R46: a pure operation writes no register). -/
abbrev SameRegisters (s t : State) : Prop :=
  t = { s with out := t.out, draws := t.draws, drawCount := t.drawCount }

end Sys2Proof.Machine
end

