-- ==== Sys2Proof/Certificates/Slice0/Obligations.lean ====
section
/-! DEFINITION. The statements for the provers, from the numbered rules of spec/.  An equation `exec i s = .next t` says that
the operation completes, what it writes, and (by the record update) that it writes nothing else. -/

open Sys2Proof Sys2Proof.Machine

/-! ### Records, operations, steps -/

/-- Every operation a record can carry is read back from its record, every operand at every value (rules R120, R121). -/
def Obligations.DecodeInvertsEncode : Prop :=
  ∀ i : Instr, WellFormed i = true → decodeRecord (encode i) = .ok i

/-- Only an operation's own record decodes to it, and what decodes is well formed (rules R121, R123). -/
def Obligations.EncodeInvertsDecode : Prop :=
  ∀ (bs : Bytes) (i : Instr), decodeRecord bs = .ok i → encode i = bs ∧ WellFormed i = true

/-- Records of the spec's programs P1 to P5 and of V128, byte by byte, decode to the operations they stand for
(spec/95_test_vectors.md section 3). -/
def Obligations.WrittenRecordsDecode : Prop :=
  decodeRecord [0x10, 0x09, 0x11, 0x00, 0x00] = .ok (.exec ⟨true, false, false, true⟩ 0x11 []) ∧
  decodeRecord [0x10, 0x07, 0x42, 0x01, 0x00, 0x01] = .ok (.exec ⟨true, true, true, false⟩ 0x42 [0x01]) ∧
  decodeRecord [0x22, 0x06, 0x00, 0x7F, 0x80, 0x01, 0xF0, 0x23, 0x80] =
    .ok (.rxChunk [0x7F, 0x80, 0x01, 0xF0, 0x23, 0x80]) ∧
  decodeRecord [0x20, 0x55] = .ok (.rxByte 0x55) ∧
  decodeRecord [0x30] = .ok .timeout ∧
  decodeRecord [0x12] = .ok .keyClear ∧
  decodeRecord [0x03] = .error (.unknownCode 0x03) ∧
  decodeRecord [0x10, 0xF1, 0x07, 0x00, 0x00] = .error (.reservedFlags 0xF1)

/-- A step runs the operation whose record is presented at its port, on the state with that input taken; nothing else is
added around `exec` (rules R18, R76, R80). -/
def Obligations.StepRunsTheDecodedOperation : Prop :=
  ∀ (s : State) (i : Instr) (bs : Bytes) (rest : List Input),
    s.inbox = .record (portOf i) bs :: rest → decodeRecord bs = .ok i → WellFormed i = true →
    step s = exec i { s with inbox := rest }

/-- Rule R123: whatever is presented on CMD and is no record of a CMD operation is answered with IllegalOp, and no state
changes but that the input is taken; so for every code that is not one of the nine, and for every reserved flag bit. -/
def Obligations.IllegalCmdRecordsAnswered : Prop :=
  ∀ (s : State) (bs : Bytes) (rest : List Input), s.inbox = .record .cmd bs :: rest →
    ((¬ ∃ i, WellFormed i = true ∧ portOf i = .cmd ∧ encode i = bs) →
      step s = .next { s with inbox := rest, out := s.out ++ [.res (.error .illegalOp)] }) ∧
    (∀ (code : Byte) (tail : Bytes), bs = code :: tail →
      code ∉ ([0x01, 0x02, 0x04, 0x05, 0x08, 0x09, 0x10, 0x11, 0x12] : Bytes) →
      step s = .next { s with inbox := rest, out := s.out ++ [.res (.error .illegalOp)] }) ∧
    (∀ (code flags : Byte) (tail : Bytes), bs = code :: flags :: tail → code = 0x08 ∨ code = 0x10 →
      flags.extractLsb' 4 4 ≠ 0 →
      step s = .next { s with inbox := rest, out := s.out ++ [.res (.error .illegalOp)] })

/-- No operation stops the machine: errors are values on RES or causes of a failed attempt (rules R124, R352).  Where the spec
gives no step or no result this is the model's choice: a TIMEOUT offered while TMR = 0 does nothing (log entry 7), DERIVE_KEY
with a modulus of 0 runs on a free value (log entry 8), and operands that no record carries are answered too (log entry 14). -/
def Obligations.EveryOperationHasANextState : Prop :=
  ∀ (i : Instr) (s : State), ∃ t, exec i s = .next t

/-! ### CRC16 and STUFF -/

/-- Rule R141: CRC16 answers the two bytes of the CRC, low byte first, and writes no register. -/
def Obligations.Crc16Answers : Prop :=
  (∀ (data : Bytes) (s : State), opcode (.crc16 data) = 0x01 ∧ portOf (.crc16 data) = .cmd ∧
    exec (.crc16 data) s = .next { s with
      out := s.out ++ [.res (.ok [(crc16Val data).extractLsb' 0 8, (crc16Val data).extractLsb' 8 8])] }) ∧
  crc16 [] = [0xFF, 0xFF] ∧ crc16 [0x41] = [0x84, 0xFC] ∧ crc16 [0x41, 0x42, 0x43] = [0x9B, 0x06] ∧
  ∀ n : Nat, crc16Val (List.replicate n 0) ≠ 0

/-- Rule R142: left to right; the table-driven step; no two seeds merge. -/
def Obligations.CrcLaws : Prop :=
  (∀ s t : Bytes, crc16Val (s ++ t) = crcFrom (crc16Val s) t) ∧
  (∀ (crc : CrcWord) (b : Byte),
    crcByte crc b = crcShifts 8 (((crc >>> 8).setWidth 8 ^^^ b).setWidth 16 <<< 8) ^^^ (crc <<< 8)) ∧
  (∀ s : Bytes, crc16Val s = s.foldl
    (fun (crc : CrcWord) (b : Byte) =>
      crcShifts 8 (((crc >>> 8).setWidth 8 ^^^ b).setWidth 16 <<< 8) ^^^ (crc <<< 8)) 0xFFFF) ∧
  crcShifts 8 0x0000 = 0x0000 ∧ crcShifts 8 0x0100 = 0x8005 ∧ crcShifts 8 0x0200 = 0x800F ∧
  crcShifts 8 0x0300 = 0x000A ∧ crcShifts 8 0x8000 = 0x8303 ∧ crcShifts 8 0xFF00 = 0x0202 ∧
  ∀ s : Bytes, Function.Bijective fun crc : CrcWord => crcFrom crc s

/-- Rules R145 and R148: STUFF doubles every 0x7F, passes every other byte, and writes no register. -/
def Obligations.StuffAnswers : Prop :=
  (∀ (data : Bytes) (s : State), opcode (.stuff data) = 0x02 ∧ portOf (.stuff data) = .cmd ∧
    exec (.stuff data) s = .next { s with
      out := s.out ++ [.res (.ok (data.flatMap fun b => if b = 0x7F then [b, 0x7F] else [b]))] }) ∧
  stuff [] = [] ∧ (∀ k : Nat, stuff (List.replicate k 0x7F) = List.replicate (2 * k) 0x7F) ∧
  stuff [0x00, 0x01, 0x7F, 0x20, 0x0A] = [0x00, 0x01, 0x7F, 0x7F, 0x20, 0x0A]

/-- The laws (a) to (d) of rule R146 on `stuff`: its length, concatenation, the even runs, injectivity; and `unstuff`, which
has a value exactly on the image of `stuff`, where it is the inverse (rule R147). -/
def Obligations.StuffLaws : Prop :=
  (∀ s : Bytes, (stuff s).length = s.length + s.count 0x7F ∧ (stuff s).length ≤ 2 * s.length) ∧
  (∀ s t : Bytes, stuff (s ++ t) = stuff s ++ stuff t) ∧
  (∀ (s pre post : Bytes) (k : Nat), stuff s = pre ++ List.replicate k 0x7F ++ post →
    pre.getLast? ≠ some 0x7F → post.head? ≠ some 0x7F → k % 2 = 0) ∧
  Function.Injective stuff ∧ ∀ t s : Bytes, unstuff t = some s ↔ stuff s = t

/-! ### AES -/

/-- AES_ENC and AES_DEC (rules R190, R191, R192): the named failure on a wrong length; otherwise each 16-byte block through
`Cipher` or `InvCipher` on its own, the length kept; no register written. -/
def Obligations.AesAnswers : Prop :=
  ∀ (key data : Bytes) (s : State),
    ((key.length ≠ 16 ∨ data.length % 16 ≠ 0) →
      exec (.aesEnc key data) s = .next { s with out := s.out ++ [.res (.error .encryptionFailure)] } ∧
      exec (.aesDec key data) s = .next { s with out := s.out ++ [.res (.error .decryptionFailure)] }) ∧
    (key.length = 16 → data.length % 16 = 0 → ∃ c p : Bytes,
      exec (.aesEnc key data) s = .next { s with out := s.out ++ [.res (.ok c)] } ∧
      exec (.aesDec key data) s = .next { s with out := s.out ++ [.res (.ok p)] } ∧
      c.length = data.length ∧ p.length = data.length ∧
      ∀ j, 16 * j < data.length →
        slice c (16 * j) (16 * j + 16) = cipher (keyExpansion key) (slice data (16 * j) (16 * j + 16)) ∧
        slice p (16 * j) (16 * j + 16) = invCipher (keyExpansion key) (slice data (16 * j) (16 * j + 16)))

/-- Rule R200: (a) each of AES_ENC and AES_DEC undoes the other under the same key; (b) both work part by part; (c) `Cipher`
is a permutation of the blocks; (d) the length is kept. -/
def Obligations.AesDecryptInvertsEncrypt : Prop :=
  ∀ key : Bytes, key.length = 16 →
    (∀ data : Bytes, data.length % 16 = 0 →
      (∃ c, aesEncrypt key data = .ok c ∧ aesDecrypt key c = .ok data ∧ c.length = data.length) ∧
      (∃ p, aesDecrypt key data = .ok p ∧ aesEncrypt key p = .ok data)) ∧
    (∀ d1 d2 c1 c2 : Bytes, d1.length % 16 = 0 → d2.length % 16 = 0 →
      (aesEncrypt key d1 = .ok c1 → aesEncrypt key d2 = .ok c2 → aesEncrypt key (d1 ++ d2) = .ok (c1 ++ c2)) ∧
      (aesDecrypt key d1 = .ok c1 → aesDecrypt key d2 = .ok c2 → aesDecrypt key (d1 ++ d2) = .ok (c1 ++ c2))) ∧
    (∀ b : Bytes, b.length = 16 → (cipher (keyExpansion key) b).length = 16 ∧
      ∃ a : Bytes, a.length = 16 ∧ cipher (keyExpansion key) a = b ∧
        ∀ a' : Bytes, a'.length = 16 → cipher (keyExpansion key) a' = b → a' = a)

/-- `KeyExpansion` satisfies the word recurrence of rule R197, word by word, with the round constants it lists. -/
def Obligations.KeyExpansionWordByWord : Prop :=
  ∀ key : Bytes, key.length = 16 →
    let w := fun i : Nat => slice ((keyExpansion key).getD (i / 4) []) (4 * (i % 4)) (4 * (i % 4) + 4)
    (∀ i, i < 4 → w i = slice key (4 * i) (4 * i + 4)) ∧
    (∀ i, 4 ≤ i → i ≤ 43 → i % 4 ≠ 0 → w i = xorBytes (w (i - 4)) (w (i - 1))) ∧
    (∀ i, 4 ≤ i → i ≤ 43 → i % 4 = 0 → w i = xorBytes (w (i - 4))
      [sbox (byteAt (w (i - 1)) 1) ^^^
          ([0x01, 0x02, 0x04, 0x08, 0x10, 0x20, 0x40, 0x80, 0x1B, 0x36] : Bytes).getD (i / 4 - 1) 0,
        sbox (byteAt (w (i - 1)) 2), sbox (byteAt (w (i - 1)) 3), sbox (byteAt (w (i - 1)) 0)])

/-! ### BUILD and EXTRACT -/

/-- BUILD without a key (rules R220, R221, R223, R224): the errors in their order, or the stuffed packet; no register
written, no draw made, `eCount` and the other descriptor bits ignored. -/
def Obligations.BuildPlainAnswers : Prop :=
  ∀ (flags : CmdFlags) (code sb : Byte) (e : Count) (args : Bytes) (s : State),
    exec (.build flags code sb none e args) s = .next { s with out := s.out ++ [.res
      (if flags.reqArgs = true ∧ args = [] then .error .argsRequired
       else if args.length > 254 then .error .payloadTooLong
       else
         let core := sb :: BitVec.ofNat 8 (args.length + 1) :: code :: args
         .ok (0x7F :: stuff (core ++ crc16 core)))] }

/-- BUILD with a key (rules R220, R222, R224): the errors in their order; otherwise `p` padding bytes are drawn and the
envelope of rule R111 is the packet's DATA. A key that is not 16 bytes is an illegal record (rule R123). -/
def Obligations.BuildEncryptedAnswers : Prop :=
  ∀ (flags : CmdFlags) (code sb : Byte) (k : Bytes) (e : Count) (args : Bytes) (s : State),
    (k.length ≠ 16 → exec (.build flags code sb (some k) e args) s =
      .next { s with out := s.out ++ [.res (.error .illegalOp)] }) ∧
    (k.length = 16 → flags.reqArgs = true → args = [] → exec (.build flags code sb (some k) e args) s =
      .next { s with out := s.out ++ [.res (.error .argsRequired)] }) ∧
    (k.length = 16 → args.length > 232 → exec (.build flags code sb (some k) e args) s =
      .next { s with out := s.out ++ [.res (.error .payloadTooLong)] }) ∧
    (k.length = 16 → (flags.reqArgs = true → args ≠ []) → args.length ≤ 232 →
      ∃ (t : State) (pad c : Bytes),
        let n := args.length + 1
        let inner := BitVec.ofNat 8 n :: le32 e ++ code :: args ++ pad
        let core := sb :: BitVec.ofNat 8 (c.length + 1) :: 0x7E :: c
        exec (.build flags code sb (some k) e args) s = .next t ∧
        pad.length = (16 - (n + 7) % 16) % 16 ∧ aesEncrypt k (inner ++ crc16 inner) = .ok c ∧
        SameRegisters s t ∧ t.out = s.out ++ [.res (.ok (0x7F :: stuff (core ++ crc16 core)))])

/-- The shape of every packet BUILD makes, laws (a), (d) and (e) of rule R225: it starts with 0x7F and the sequence byte,
has 6 to 519 bytes, and its DATA has 17, 33, ... or 241 bytes when encrypted. -/
def Obligations.BuiltPacketShape : Prop :=
  ∀ (reqArgs : Bool) (code : Byte) (args : Bytes) (sb : Byte) (key : Option Bytes) (e : Count) (pad w : Bytes),
    wfOptKey key = true → pad.length = padLen (args.length + 1) → sb ≠ 0x7F →
    buildPacket reqArgs code args sb key e pad = .ok w →
    w.head? = some 0x7F ∧ byteAt w 1 = sb ∧ 6 ≤ w.length ∧ w.length ≤ 519 ∧
    ∃ data : Bytes, w = 0x7F :: stuff (packetBody sb data) ∧ 1 ≤ data.length ∧ data.length ≤ 255 ∧
      (key = none → data = code :: args) ∧
      (key ≠ none → data.head? = some 0x7E ∧ data.length = 1 + (args.length + 1 + 7 + padLen (args.length + 1)) ∧
        data.length % 16 = 1 ∧ 17 ≤ data.length ∧ data.length ≤ 241)

/-- EXTRACT without a key (rules R230, R231, R234), in the order of its tests; DATA that starts with 0x7E is returned
like any other. -/
def Obligations.ExtractPlainAnswers : Prop :=
  ∀ (f : Bytes) (e : Count) (s : State),
    exec (.extract f none e) s = .next { s with out := s.out ++ [.res
      (if f.head? ≠ some 0x7F then .error .unknownResponse
       else if f.length < 5 ∨ f.length ≠ (byteAt f 2).toNat + 5 ∨
           crc16 ((f.drop 1).take (f.length - 3)) ≠ f.drop (f.length - 2) then .error .crcMismatch
       else .ok ((f.drop 3).take (f.length - 5)))] }

/-- EXTRACT with a key (rules R230 to R233, R371, R412): a key that is not 16 bytes is an illegal record; then the tests in
their order: the start marker, the length and the CRC; on a frame that passes them plain DATA is returned, and an envelope is
opened, its ciphertext's length, its counter and its inner length tested in that order, its inner CRC not looked at. -/
def Obligations.ExtractWithKeyAnswers : Prop :=
  (∀ (f k : Bytes) (e : Count) (s : State),
    (k.length ≠ 16 → exec (.extract f (some k) e) s = .next { s with out := s.out ++ [.res (.error .illegalOp)] }) ∧
    (k.length = 16 → f.head? ≠ some 0x7F →
      exec (.extract f (some k) e) s = .next { s with out := s.out ++ [.res (.error .unknownResponse)] }) ∧
    (k.length = 16 → f.head? = some 0x7F →
      (f.length < 5 ∨ f.length ≠ (byteAt f 2).toNat + 5 ∨
        crc16 ((f.drop 1).take (f.length - 3)) ≠ f.drop (f.length - 2)) →
      exec (.extract f (some k) e) s = .next { s with out := s.out ++ [.res (.error .crcMismatch)] })) ∧
  ∀ (sb : Byte) (data k : Bytes) (e : Count) (s : State), data.length ≤ 255 → k.length = 16 →
    let f := 0x7F :: packetBody sb data
    (data.head? ≠ some 0x7E → exec (.extract f (some k) e) s = .next { s with out := s.out ++ [.res (.ok data)] }) ∧
    (∀ c, data = 0x7E :: c → c = [] ∨ c.length % 16 ≠ 0 →
      exec (.extract f (some k) e) s = .next { s with out := s.out ++ [.res (.error .decryptionFailure)] }) ∧
    (∀ c t, data = 0x7E :: c → c ≠ [] → aesDecrypt k c = .ok t →
      exec (.extract f (some k) e) s = .next { s with out := s.out ++ [.res
        (if fromLe ((t.drop 1).take 4) ≠ (e.toNat + 1) % 2 ^ 32 then .error .counterMismatch
         else if (byteAt t 0).toNat + 7 > t.length then .error .decryptionFailure
         else .ok ((t.drop 5).take (byteAt t 0).toNat))] })

/-- Rule R235, the round trip of the codec: the decoder emits one frame of a built packet, and what EXTRACT gives of it, with
every counter, with and without a key on either side. -/
def Obligations.CodecRoundTrip : Prop :=
  ∀ (reqArgs : Bool) (code : Byte) (args : Bytes) (sb : Byte) (key : Option Bytes) (e : Count) (pad w : Bytes),
    wfOptKey key = true → pad.length = padLen (args.length + 1) → sb ≠ 0x7F →
    buildPacket reqArgs code args sb key e pad = .ok w →
    ∃ x : Bytes, w = 0x7F :: stuff x ∧
      (∀ s : State, s.rxs = .idle → s.rxBuf = [] → exec (.rxChunk w) s = exec (.frameIn (0x7F :: x)) s) ∧
      (key = none → ∀ e' : Count, extractPacket (0x7F :: x) none e' = .ok (code :: args)) ∧
      (∀ k, key = some k → ∀ e' : Count, extractPacket (0x7F :: x) (some k) e' =
        if e' + 1 = e then .ok (code :: args) else .error .counterMismatch) ∧
      (key = none → code ≠ 0x7E → ∀ (k' : Bytes) (e' : Count), k'.length = 16 →
        extractPacket (0x7F :: x) (some k') e' = .ok (code :: args)) ∧
      (key = none → code = 0x7E → ∀ (k' : Bytes) (e' : Count),
        extractPacket (0x7F :: x) (some k') e' = openEnvelope k' e' args) ∧
      (∀ k, key = some k → ∃ c : Bytes, aesEncrypt k (innerPlain e (code :: args) pad) = .ok c ∧
        ∀ e' : Count, extractPacket (0x7F :: x) none e' = .ok (0x7E :: c))

/-! ### The Frame Decoder -/

/-- The whole transition function of RX_BYTE, arm by arm, on every state and every byte (rules R161 to R168). -/
def Obligations.RxByteArms : Prop :=
  ∀ (b : Byte) (s : State),
    let appended := fun buf : Bytes =>
      if 3 ≤ buf.length ∧ buf.length = (byteAt buf 2).toNat + 5 then
        exec (.frameIn buf) { s with rxs := .idle, rxBuf := [] }
      else .next { s with rxs := .inFrame, rxBuf := buf }
    (s.rxs = .idle → b ≠ 0x7F → exec (.rxByte b) s = .next s) ∧
    (s.rxs = .idle → b = 0x7F → exec (.rxByte b) s = .next { s with rxs := .inFrame, rxBuf := [0x7F] }) ∧
    (s.rxs = .inFrame → s.rxBuf.length = 1 → b = 0x7F →
      exec (.rxByte b) s = .next { s with rxs := .idle, rxBuf := [] }) ∧
    (s.rxs = .inFrame → s.rxBuf.length ≠ 1 → b = 0x7F → exec (.rxByte b) s = .next { s with rxs := .awaitStuff }) ∧
    (s.rxs = .inFrame → b ≠ 0x7F → exec (.rxByte b) s = appended (s.rxBuf ++ [b])) ∧
    (s.rxs = .awaitStuff → b = 0x7F → exec (.rxByte b) s = appended (s.rxBuf ++ [0x7F])) ∧
    (s.rxs = .awaitStuff → b ≠ 0x7F →
      exec (.rxByte b) s = .next { s with rxs := .inFrame, rxBuf := [0x7F, b] })

/-- RX_CHUNK is the RX_BYTE of its bytes in order, and how the stream is cut into chunks does not matter
(rules R170, R77). -/
def Obligations.ChunkingDoesNotMatter : Prop :=
  (∀ s : State, exec (.rxChunk []) s = .next s) ∧
  (∀ (data : Bytes) (s : State), ∃ t, exec (.rxChunk data) s = .next t) ∧
  (∀ (b : Byte) (bs : Bytes) (s : State), ∃ t, exec (.rxByte b) s = .next t ∧
    exec (.rxChunk (b :: bs)) s = exec (.rxChunk bs) t) ∧
  ∀ (cs ds : List Bytes) (s : State), cs.flatten = ds.flatten → chunks cs s = chunks ds s

/-- RX_FLUSH hands over a non-empty partial buffer as it is and empties it; with an empty buffer it only leaves the decoder
IDLE.  A flushed partial frame never completes a command: it costs the attempt, as a sequence mismatch or as a CRC mismatch
(rules R171, R414). -/
def Obligations.FlushHandsOverThePartialFrame : Prop :=
  (∀ s : State,
    (s.rxBuf ≠ [] → exec .rxFlush s = exec (.frameIn s.rxBuf) { s with rxs := .idle, rxBuf := [] }) ∧
    (s.rxBuf ≠ [] → s.sess = .idle → exec .rxFlush s = .next { s with rxs := .idle, rxBuf := [] }) ∧
    (s.rxBuf = [] → exec .rxFlush s = .next { s with rxs := .idle })) ∧
  ∀ s : State, Sound s → s.sess = .awaiting → s.rxBuf ≠ [] → ∃ t, exec .rxFlush s = .next t ∧
    t.lastCause = (if s.rxBuf.length < 2 ∨ byteAt s.rxBuf 1 ≠ s.oSeq then .sequenceMismatch else .crcMismatch) ∧
    t.rxs = .idle ∧ t.rxBuf = [] ∧ t.seq = s.seq ∧ t.eCount = s.eCount ∧ completions t.out = completions s.out ∧
    (t.sess = .awaiting ↔ s.attempt < s.cfg.commandRetries.val)

/-- Rule R173: the wire packet of a frame `x`, fed to an IDLE decoder in any chunking, hands exactly the frame
`[0x7F] ++ x` to FRAME_IN and leaves the decoder IDLE and empty.  It holds from IDLE only: from a state with a partial
frame buffered there are packets that do not end so. -/
def Obligations.WirePacketIsFramed : Prop :=
  (∀ (s : State) (x : Bytes) (cs : List Bytes), s.rxs = .idle → s.rxBuf = [] →
    4 ≤ x.length → x.length = (byteAt x 1).toNat + 4 → byteAt x 0 ≠ 0x7F → cs.flatten = 0x7F :: stuff x →
    exec (.frameIn (0x7F :: x)) s = .next (chunks cs s) ∧ (chunks cs s).rxs = .idle ∧ (chunks cs s).rxBuf = []) ∧
  ∃ (s : State) (x : Bytes), DecoderInv s ∧ s.rxBuf ≠ [] ∧
    4 ≤ x.length ∧ x.length = (byteAt x 1).toNat + 4 ∧ byteAt x 0 ≠ 0x7F ∧
    (chunks [0x7F :: stuff x] s).rxs ≠ .idle

/-- Rule R172, resynchronisation: from every sound state `x 7F y` leaves a new frame `[0x7F, y]`; `7F y` does so from IDLE
and from IN_FRAME with two or more bytes, and from the other states it does not. -/
def Obligations.MarkerResynchronises : Prop :=
  ∀ (s : State) (x y : Byte), DecoderInv s → x ≠ 0x7F → y ≠ 0x7F →
    (∃ t, exec (.rxChunk [x, 0x7F, y]) s = .next t ∧ t.rxs = .inFrame ∧ t.rxBuf = [0x7F, y]) ∧
    (∃ t, exec (.rxChunk [0x7F, y]) s = .next t ∧
      ((t.rxs = .inFrame ∧ t.rxBuf = [0x7F, y]) ↔
        (s.rxs = .idle ∨ (s.rxs = .inFrame ∧ 2 ≤ s.rxBuf.length))))

/-! ### The session -/

/-- EXEC refused: the errors in the order of rule R371, nothing on TXD, no register changed but SEQ by a SYNC that BUILD
refuses (rules R251, R253, R269). -/
def Obligations.ExecRefusals : Prop :=
  ∀ (flags : CmdFlags) (code : Byte) (args : Bytes) (s : State),
    let limit := if s.keyV = true ∧ (flags.reqEnc = true ∨ s.cfg.encryptAll = true) then 232 else 254
    (s.proc = true →
      exec (.exec flags code args) s = .next { s with out := s.out ++ [.res (.error .alreadyProcessing)] }) ∧
    (s.proc = false → flags.known = false →
      exec (.exec flags code args) s = .next { s with out := s.out ++ [.res (.error .unknownCommand)] }) ∧
    (s.proc = false → flags.known = true → flags.reqEnc = true → s.keyV = false →
      exec (.exec flags code args) s = .next { s with out := s.out ++ [.res (.error .encryptionRequired)] }) ∧
    (s.proc = false → flags.known = true → (flags.reqEnc = true → s.keyV = true) →
      flags.reqArgs = true → args = [] →
      exec (.exec flags code args) s =
        .next { s with seq := flags.isSync || s.seq, out := s.out ++ [.res (.error .argsRequired)] }) ∧
    (s.proc = false → flags.known = true → (flags.reqEnc = true → s.keyV = true) → args.length > limit →
      exec (.exec flags code args) s =
        .next { s with seq := flags.isSync || s.seq, out := s.out ++ [.res (.error .payloadTooLong)] })

/-- EXEC admitted, in the clear (rules R251, R252, R253, R254, R103): the packet, the registers of the new command, the
one write on TXD and the admission on RES. -/
def Obligations.ExecAdmitsInTheClear : Prop :=
  ∀ (flags : CmdFlags) (code : Byte) (args : Bytes) (s : State),
    s.proc = false → flags.known = true → (flags.reqEnc = true → s.keyV = true) →
    (s.keyV = true → flags.reqEnc = false ∧ s.cfg.encryptAll = false) →
    (flags.reqArgs = true → args ≠ []) → args.length ≤ 254 →
    let seq := flags.isSync || s.seq
    let sb : Byte := BitVec.ofNat 8 ((if seq then 0x80 else 0x00) + s.cfg.deviceId.toNat)
    let core := sb :: BitVec.ofNat 8 (args.length + 1) :: code :: args
    let packet := 0x7F :: stuff (core ++ crc16 core)
    exec (.exec flags code args) s = .next { s with
      seq := seq, txBuf := packet, oSeq := sb, attempt := 1, lastCause := .ok,
      proc := true, tmr := true, sess := .awaiting, out := s.out ++ [.txd packet, .res (.ok [])] }

/-- EXEC admitted, encrypted (rules R251, R252, R222): as in the clear, but the packet is BUILD's for the session key, the
counter as it stands and some padding of the right length. -/
def Obligations.ExecAdmitsEncrypted : Prop :=
  ∀ (flags : CmdFlags) (code : Byte) (args : Bytes) (s : State),
    s.proc = false → flags.known = true → s.keyV = true → s.key.length = 16 →
    (flags.reqEnc = true ∨ s.cfg.encryptAll = true) → (flags.reqArgs = true → args ≠ []) → args.length ≤ 232 →
    let seq := flags.isSync || s.seq
    let sb : Byte := BitVec.ofNat 8 ((if seq then 0x80 else 0x00) + s.cfg.deviceId.toNat)
    ∃ (pad packet : Bytes) (queue : List Nat) (used : Nat),
      pad.length = padLen (args.length + 1) ∧
      buildPacket flags.reqArgs code args sb (some s.key) s.eCount pad = .ok packet ∧
      exec (.exec flags code args) s = .next { s with
        seq := seq, txBuf := packet, oSeq := sb, attempt := 1, lastCause := .ok,
        proc := true, tmr := true, sess := .awaiting, out := s.out ++ [.txd packet, .res (.ok [])],
        draws := queue, drawCount := used }

/-- KEY_INSTALL (rule R263): KEY and KEYV, OK on RES, nothing else, whatever PROC is; a key that is not 16 bytes is an
illegal record. -/
def Obligations.KeyInstallLoadsTheKey : Prop :=
  ∀ (key : Bytes) (s : State),
    (key.length = 16 → exec (.keyInstall key) s =
      .next { s with key := key, keyV := true, out := s.out ++ [.res (.ok [])] }) ∧
    (key.length ≠ 16 → exec (.keyInstall key) s = .next { s with out := s.out ++ [.res (.error .illegalOp)] })

/-- KEY_CLEAR (rule R264): KEYV and ECOUNT, OK on RES, nothing else, whatever PROC is.  While KEYV = 0 a command that requires
encryption is refused with EncryptionRequired, or with AlreadyProcessing while one is in flight; and a step sets KEYV only by
KEY_INSTALL, the record's or the one the host issues on a key exchange response.  That the host's KEY_INSTALL is part of the
step `hostRun` that takes up the waiting command's response is the model's choice (log entry 9). -/
def Obligations.KeyClearDropsTheKey : Prop :=
  (∀ s : State, exec .keyClear s = .next { s with keyV := false, eCount := 0, out := s.out ++ [.res (.ok [])] }) ∧
  (∀ (flags : CmdFlags) (code : Byte) (args : Bytes) (s : State),
    s.keyV = false → flags.known = true → flags.reqEnc = true →
    exec (.exec flags code args) s = .next { s with out := s.out ++
      [.res (.error (if s.proc then .alreadyProcessing else .encryptionRequired))] }) ∧
  ∀ s t : State, s.keyV = false → step s = .next t → t.keyV = true →
    (∃ bytes rest, s.inbox = .record .cmd bytes :: rest ∧ decodeRecord bytes = .ok (.keyInstall t.key)) ∨
    (∃ k rest c mark, s.inbox = .hostRun k :: rest ∧
      s.host.tasks[k]? = some (.awaiting .requestKeyExchange c mark))

/-- FRAME_IN of an accepted frame (rules R255, R257, R259, R266): the payload on RES, the cleanup, SEQ inverted, ECOUNT one
up exactly when a key is active and DATA begins with 0x7E. -/
def Obligations.FrameInAccepts : Prop :=
  ∀ (f p : Bytes) (s : State), s.sess = .awaiting → 2 ≤ f.length → byteAt f 1 = s.oSeq →
    extractPacket f (if s.keyV then some s.key else none) s.eCount = .ok p →
    exec (.frameIn f) s = .next { s with
      eCount := if s.keyV = true ∧ 1 ≤ (byteAt f 2).toNat ∧ byteAt f 3 = 0x7E then s.eCount + 1 else s.eCount,
      seq := !s.seq, proc := false, tmr := false, sess := .idle, out := s.out ++ [.res (.completed p)] }

/-- FRAME_IN of a rejected frame (rules R255, R256, R258, R270, R371): the sequence byte is tested before all else, then
EXTRACT; the attempt fails with that cause, the same bytes are sent again or the command ends, ECOUNT and SEQ stay.  A frame
while no command waits is dropped: no register changes and nothing is emitted (rule R265). -/
def Obligations.FrameInRejectsOrDrops : Prop :=
  (∀ (f : Bytes) (c : Status) (s : State), s.sess = .awaiting →
    (((f.length < 2 ∨ byteAt f 1 ≠ s.oSeq) ∧ c = .sequenceMismatch) ∨
      (2 ≤ f.length ∧ byteAt f 1 = s.oSeq ∧
        extractPacket f (if s.keyV then some s.key else none) s.eCount = .error c)) →
    (s.attempt < s.cfg.commandRetries.val → exec (.frameIn f) s = .next { s with
      lastCause := c, attempt := s.attempt + 1, proc := true, tmr := true, out := s.out ++ [.txd s.txBuf] }) ∧
    (s.cfg.commandRetries.val ≤ s.attempt → exec (.frameIn f) s = .next { s with
      lastCause := c, proc := false, tmr := false, sess := .idle,
      out := s.out ++ [.res (.commandFailed s.attempt c)] })) ∧
  ∀ (f : Bytes) (s : State), s.sess = .idle → exec (.frameIn f) s = .next s

/-- TIMEOUT (rules R258, R262): while the timer is armed the attempt fails with cause Timeout, and the same bytes go out
again or the command ends.  A TIMEOUT offered while TMR = 0 does nothing: the spec says that the step does not exist then;
that the machine passes it over is the model's choice (log entry 7). -/
def Obligations.TimeoutActsOnlyWhileArmed : Prop :=
  ∀ s : State,
    (s.tmr = true → s.attempt < s.cfg.commandRetries.val → exec .timeout s = .next { s with
      lastCause := .timeout, attempt := s.attempt + 1, proc := true, tmr := true,
      out := s.out ++ [.txd s.txBuf] }) ∧
    (s.tmr = true → s.cfg.commandRetries.val ≤ s.attempt → exec .timeout s = .next { s with
      lastCause := .timeout, proc := false, tmr := false, sess := .idle,
      out := s.out ++ [.res (.commandFailed s.attempt .timeout)] }) ∧
    (s.tmr = false → exec .timeout s = .next s)

/-- Rule R268: from an admitted EXEC, a line that never answers causes exactly COMMAND_RETRIES writes, all of the same
bytes, counting EXEC's own; then the command fails with that count, the session is IDLE and SEQ is as it was.  The default
of COMMAND_RETRIES is 20. -/
def Obligations.RetryExhaustion : Prop :=
  State.reset.cfg.commandRetries.val = 20 ∧ ∀ (flags : CmdFlags) (code : Byte) (args : Bytes) (s t : State),
    s.proc = false → exec (.exec flags code args) s = .next t → t.proc = true →
    txdWrites t.out = txdWrites s.out ++ [t.txBuf] ∧
    (∀ k, k < s.cfg.commandRetries.val → timeouts k t = { t with
      attempt := k + 1, lastCause := if k = 0 then .ok else .timeout,
      out := t.out ++ List.replicate k (.txd t.txBuf) }) ∧
    timeouts s.cfg.commandRetries.val t = { t with
      attempt := s.cfg.commandRetries.val, lastCause := .timeout, proc := false, tmr := false, sess := .idle,
      out := t.out ++ List.replicate (s.cfg.commandRetries.val - 1) (.txd t.txBuf) ++
        [.res (.commandFailed s.cfg.commandRetries.val .timeout)] }

/-- What a well-behaved device answers in the clear completes the command, from bytes on the line to the record on RES, in
any chunking (rules R3, R173, R225, R255, R259). -/
def Obligations.PlainResponseCompletesTheCommand : Prop :=
  ∀ (s : State) (data : Bytes) (cs : List Bytes), Sound s → s.sess = .awaiting → s.rxs = .idle → data.length ≤ 255 →
    (s.keyV = true → data.head? ≠ some 0x7E) →
    (let core := s.oSeq :: BitVec.ofNat 8 data.length :: data
     cs.flatten = 0x7F :: stuff (core ++ crc16 core)) →
    chunks cs s = { s with
      seq := !s.seq, proc := false, tmr := false, sess := .idle, out := s.out ++ [.res (.completed data)] }

/-- What a well-behaved device answers encrypted, one counter on, completes the command and advances ECOUNT by one modulo
2^32; with any other counter the attempt fails with CounterMismatch and ECOUNT stays
(rules R173, R235, R255, R257, R270). -/
def Obligations.EncryptedResponseAdvancesTheCounter : Prop :=
  ∀ (s : State) (code : Byte) (args pad w : Bytes) (e : Count) (cs : List Bytes),
    Sound s → s.sess = .awaiting → s.rxs = .idle → s.keyV = true → pad.length = padLen (args.length + 1) →
    buildPacket false code args s.oSeq (some s.key) e pad = .ok w → cs.flatten = w →
    (e = s.eCount + 1 → chunks cs s = { s with
      eCount := s.eCount + 1, seq := !s.seq, proc := false, tmr := false, sess := .idle,
      out := s.out ++ [.res (.completed (code :: args))] }) ∧
    (e ≠ s.eCount + 1 → (chunks cs s).lastCause = .counterMismatch ∧ (chunks cs s).eCount = s.eCount ∧
      (chunks cs s).seq = s.seq ∧ completions (chunks cs s).out = completions s.out)

/-! ### Rules about every operation -/

/-- The configuration is constant: no step writes it (rule R37). -/
def Obligations.ConfigurationIsConstant : Prop :=
  ∀ s t : State, step s = .next t → t.cfg = s.cfg

/-- The state right after reset holds the values the spec gives (rules R20, R45, R401); KEY, OSEQ and the parameters the
spec leaves open are not spoken of. -/
def Obligations.ResetValues : Prop :=
  State.reset.rxs = .idle ∧ State.reset.rxBuf = [] ∧ State.reset.seq = true ∧ State.reset.eCount = 0 ∧
  State.reset.keyV = false ∧ State.reset.proc = false ∧ State.reset.sess = .idle ∧ State.reset.tmr = false ∧
  State.reset.attempt = 0 ∧ State.reset.lastCause = .ok ∧ State.reset.txBuf = [] ∧
  State.reset.host.enabled = false ∧ State.reset.host.polling = false ∧
  State.reset.host.protocolVersion = none ∧ State.reset.host.unitType = none ∧
  State.reset.host.generator = none ∧ State.reset.host.modulus = none ∧ State.reset.host.hostRandom = none ∧
  State.reset.host.hostInter = none ∧ State.reset.host.slaveInterKey = none ∧ State.reset.host.key = none

/-- The invariants of rules R24 and R36 and the buffers' bounds hold of the model's reset state.  Two clauses rest on choices
of the model: the 16 bytes of KEY and OSEQ = 0x00, whose bits 6 to 4 are zero, are log entry 1, and OSEQ's nibble is
DEVICE_ID because the instance after reset has DEVICE_ID 0, log entry 2. -/
def Obligations.ResetIsSound : Prop :=
  Sound State.reset

/-- Every step keeps the invariants of rules R24 and R36 (a) to (c), the bound of rule R31, and the bounds of the buffers
(rules R22, R33). -/
def Obligations.EveryStepKeepsTheInvariants : Prop :=
  ∀ s t : State, Sound s → step s = .next t → Sound t

/-- Rule R36 (d), step by step: a step that finds a command in flight, whether it ends it or not, makes one write on TXD for
each further attempt, of the same bytes; a command begins with its first write and attempt 1; a step that leaves the session
IDLE as it was writes nothing. -/
def Obligations.WritesCountAttempts : Prop :=
  ∀ s t : State, Sound s → step s = .next t →
    (s.sess = .awaiting →
      s.attempt ≤ t.attempt ∧
      txdWrites t.out = txdWrites s.out ++ List.replicate (t.attempt - s.attempt) s.txBuf) ∧
    (s.sess = .idle → t.sess = .awaiting → t.attempt = 1 ∧ txdWrites t.out = txdWrites s.out ++ [t.txBuf]) ∧
    (s.sess = .idle → t.sess = .idle → txdWrites t.out = txdWrites s.out)

/-- A retry repeats bytes, not work (rules R85, R260): while a command is in flight no operation changes TXBUF or OSEQ, and
whatever is written on TXD is TXBUF. -/
def Obligations.RetriesRepeatTheSameBytes : Prop :=
  ∀ (i : Instr) (s t : State), Sound s → s.sess = .awaiting → exec i s = .next t →
    t.txBuf = s.txBuf ∧ t.oSeq = s.oSeq ∧ ∃ k, txdWrites t.out = txdWrites s.out ++ List.replicate k s.txBuf

/-- The sequence bit is inverted by every command that completes and by nothing else but an EXEC of SYNC
(rules R26, R259, R267, R417). -/
def Obligations.SequenceBitCountsCompletions : Prop :=
  ∀ (i : Instr) (s t : State), exec i s = .next t →
    (∀ flags code args, i = .exec flags code args → flags.isSync = false) →
    ∃ ps, completions t.out = completions s.out ++ ps ∧ t.seq = (s.seq ^^ decide (ps.length % 2 = 1))

/-- No operation but KEY_CLEAR and INIT_ENCRYPTION, which clears the key, changes ECOUNT otherwise than by adding one modulo
2^32, and then a key is installed and the frame handed over completes the command: its sequence byte is OSEQ, its DATA begins
with 0x7E, and EXTRACT with the key and the counter gives the payload (rules R27, R257, R270). -/
def Obligations.CounterAdvancesOnlyOnCompletion : Prop :=
  ∀ (i : Instr) (s t : State), exec i s = .next t → i ≠ .keyClear → i ≠ .initEncryption →
    t.eCount = s.eCount ∨
      (t.eCount = s.eCount + 1 ∧ s.keyV = true ∧ ∃ f p, HandsOver i s f ∧ byteAt f 1 = s.oSeq ∧
        1 ≤ (byteAt f 2).toNat ∧ byteAt f 3 = 0x7E ∧ extractPacket f (some s.key) s.eCount = .ok p ∧
        completions t.out = completions s.out ++ [p])

/-- The LINE agent changes decoder registers and, through a completed frame, only ECOUNT, SEQ, PROC, SESS, TMR, ATTEMPT and
LASTCAUSE (rule R46): key, configuration, OSEQ, TXBUF and the host's side are out of its reach. -/
def Obligations.LineAgentReach : Prop :=
  ∀ (i : Instr) (s t : State), exec i s = .next t →
    (i = .rxFlush ∨ ∃ b d, i = .rxByte b ∨ i = .rxChunk d) →
    t = { s with
      rxs := t.rxs, rxBuf := t.rxBuf, eCount := t.eCount, seq := t.seq, proc := t.proc, sess := t.sess,
      tmr := t.tmr, attempt := t.attempt, lastCause := t.lastCause, out := t.out }

/-- `FramingError` is never raised: no record of any step carries it and LASTCAUSE never comes to hold it (rule R353). -/
def Obligations.FramingErrorNeverSurfaces : Prop :=
  ∀ s t : State, step s = .next t →
    (s.lastCause ≠ .framingError → t.lastCause ≠ .framingError) ∧
    ∃ new, t.out = s.out ++ new ∧ ∀ r, .res r ∈ new →
      r ≠ .error .framingError ∧ ∀ n, r ≠ .commandFailed n .framingError

/-- While KEYV = 0 no operation reads KEY: two states that differ in KEY alone give states that differ in KEY alone, and in
nothing once a key is installed (rules R28, R45; U5). -/
def Obligations.KeyUnreadWhileAbsent : Prop :=
  ∀ (i : Instr) (s t : State) (k : Bytes), s.keyV = false → exec i s = .next t →
    ∃ k', exec i { s with key := k } = .next { t with key := k' } ∧
      (t.keyV = true → k' = t.key) ∧ (t.keyV = false → k' = k)

/-- While no command is in flight nothing reads what the last one left: two such states that differ in TXBUF, OSEQ, ATTEMPT
and LASTCAUSE alone answer every operation alike (rules R31 to R35, R45; U7). -/
def Obligations.OldCommandUnreadWhileIdle : Prop :=
  ∀ (i : Instr) (s t : State) (txBuf : Bytes) (oSeq : Byte) (attempt : Nat) (cause : Status),
    s.proc = false → s.sess = .idle → s.tmr = false → exec i s = .next t →
    ∃ u, exec i { s with txBuf := txBuf, oSeq := oSeq, attempt := attempt, lastCause := cause } = .next u ∧
      u.out = t.out ∧ u.seq = t.seq ∧ u.eCount = t.eCount ∧ u.keyV = t.keyV ∧ u.key = t.key ∧ u.proc = t.proc ∧
      u.sess = t.sess ∧ u.tmr = t.tmr ∧ u.rxs = t.rxs ∧ u.rxBuf = t.rxBuf ∧ u.host = t.host

/-! ### The host's side -/

/-- Rule R301: `modexp(b, e, m)` is the unique `r` with `0 ≤ r < m` and `r = b^e (mod m)`. -/
def Obligations.ModexpIsThePower : Prop :=
  ∀ b e m : Nat, 1 ≤ m → modexp b e m < m ∧ modexp b e m = b ^ e % m ∧ modexp b 0 m = 1 % m

/-- Rule R307: host and device come to the same key, `generator^(hostRandom * slaveRandom) mod modulus`. -/
def Obligations.KeyAgreement : Prop :=
  ∀ generator hostRandom slaveRandom modulus : Nat, 1 ≤ modulus →
    modexp (modexp generator slaveRandom modulus) hostRandom modulus =
      modexp (modexp generator hostRandom modulus) slaveRandom modulus ∧
    modexp (modexp generator slaveRandom modulus) hostRandom modulus =
      generator ^ (hostRandom * slaveRandom) % modulus

/-- GEN_KEYPAIR (rule R300): two primes are drawn, the larger is the generator, the smaller the modulus; past the zero check
the exponent is drawn and the host's four variables are written; the block is unchanged.  The model's choices: a drawn prime
is reduced modulo 2^16 ("16-bit magnitude" is open) and a failed zero check has taken two draws, both log entry 4; the
failure is tagged `0 none`, log entry 22. -/
def Obligations.GenKeypairWritesTheKeyPair : Prop :=
  ∀ s : State,
    let p1 := s.draw.1 % 65536
    let p2 := s.draw.2.draw.1 % 65536
    let u2 := s.draw.2.draw.2
    let r := u2.draw.1 % 2 ^ 31
    let u3 := u2.draw.2
    let g := max p1 p2
    let m := min p1 p2
    exec .genKeypair s = .next (
      if m = 0 then { s with
        draws := u2.draws, drawCount := u2.drawCount,
        host := { s.host with results := s.host.results ++ [.keyExchangeFailure 0 none] } }
      else { s with
        draws := u3.draws, drawCount := u3.drawCount,
        host := { s.host with
          generator := some g, modulus := some m, hostRandom := some r, hostInter := some (modexp g r m),
          results := s.host.results ++ [.keyPair ⟨g, m, r, modexp g r m⟩] } })

/-- DERIVE_KEY (rules R302, R303): KeyExchangeFailure unless the device's value is 8 bytes; otherwise `slaveInterKey`, `key`
and the composed AES key, both halves little-endian, nothing of `key` lost for a modulus up to 2^64; the block
unchanged.  For a modulus of 0 the spec states no `key`: it is then `modexp`'s free value (log entry 8).  The tag `0 none` of
the failure is the model's (log entry 22). -/
def Obligations.DeriveKeyComposesTheKey : Prop :=
  ∀ (bytes : Bytes) (fixedKey : BitVec 64) (hostRandom modulus : Nat) (s : State),
    (bytes.length ≠ 8 → exec (.deriveKey bytes fixedKey hostRandom modulus) s = .next { s with host :=
      { s.host with results := s.host.results ++ [.keyExchangeFailure 0 none] } }) ∧
    (bytes.length = 8 → ∃ (key : Nat) (encryptKey : Bytes),
      exec (.deriveKey bytes fixedKey hostRandom modulus) s = .next { s with host :=
        { s.host with
          slaveInterKey := some (fromLe bytes), key := some key,
          results := s.host.results ++ [.derived (fromLe bytes) key encryptKey] } } ∧
      encryptKey.length = 16 ∧ fromLe (encryptKey.take 8) = fixedKey.toNat ∧
      fromLe (encryptKey.drop 8) = key % 2 ^ 64 ∧
      (1 ≤ modulus → key = fromLe bytes ^ hostRandom % modulus) ∧
      (1 ≤ modulus → modulus ≤ 2 ^ 64 → fromLe (encryptKey.drop 8) = key))

/-- INIT_ENCRYPTION (rule R324): unless the key pair fails, it is the host's, the key is cleared and ECOUNT is 0, and the
exchange goes on with the generated numbers, SET_GENERATOR, SET_MODULUS and REQUEST_KEY_EXCHANGE; a step's command goes out
as an EXEC of its own, in the clear while KEYV = 0 whatever ENCRYPT_ALL is.  The model's choices: that GEN_KEYPAIR and
KEY_CLEAR are one step, that the procedure then stands in `tasks`, and that it may start while a command is in flight are log
entry 9; the draws modulo 65536 are log entry 4; the tag `0 none` is log entry 22. -/
def Obligations.InitEncryptionBegins : Prop :=
  (∀ s : State,
    let p1 := s.draw.1 % 65536
    let p2 := s.draw.2.draw.1 % 65536
    let u2 := s.draw.2.draw.2
    let r := u2.draw.1 % 2 ^ 31
    let u3 := u2.draw.2
    let g := max p1 p2
    let m := min p1 p2
    exec .initEncryption s = .next (
      if m = 0 then { s with
        draws := u2.draws, drawCount := u2.drawCount,
        host := { s.host with results := s.host.results ++ [.keyExchangeFailure 0 none] } }
      else { s with
        draws := u3.draws, drawCount := u3.drawCount, keyV := false, eCount := 0, out := s.out ++ [.res (.ok [])],
        host := { s.host with
          generator := some g, modulus := some m, hostRandom := some r, hostInter := some (modexp g r m),
          tasks := s.host.tasks ++ [.initIssue 1 ⟨g, m, r, modexp g r m⟩] } })) ∧
  (initCommand 1 = .setGenerator ∧ initCommand 2 = .setModulus ∧ initCommand 3 = .requestKeyExchange ∧
    ∀ kp : KeyPair,
      initArgument 1 kp = kp.generator ∧ initArgument 2 kp = kp.modulus ∧ initArgument 3 kp = kp.hostInter) ∧
  ∀ (s : State) (k n : Nat) (kp : KeyPair) (rest : List Input) (args : Bytes),
    s.inbox = .hostRun k :: rest → s.host.tasks[k]? = some (.initIssue n kp) →
    encodeArgs s.cfg (initCommand n) [initArgument n kp] s.host.protocolVersion = some args →
    let d := commandDescriptor s.cfg (initCommand n)
    let h := { s.host with tasks := s.host.tasks.eraseIdx k }
    ∃ u, exec (.exec d.1 d.2 args) { s with inbox := rest, host := h } = .next u ∧
      (s.proc = false → s.keyV = false → d.1.known = true → d.1.reqEnc = false → (d.1.reqArgs = true → args ≠ []) →
        args.length ≤ 254 → u.proc = true ∧ u.txBuf = wirePacket u.oSeq (d.2 :: args)) ∧
      (s.proc = false → u.proc = true → step s = .next { u with host :=
        { h with tasks := h.tasks ++ [.awaiting (initCommand n) (.initStep n kp) u.out.length] } })

/-- A key exchange that fails at a step leaves the session key uninstalled, and KeyExchangeFailure with the step and the
underlying failure is what the procedure returns (rules R324, R363): when the step's command failed after its retries or its
response is no success; when its arguments cannot be encoded or its EXEC is refused; when the device's value of step 3 is not
8 bytes, and DERIVE_KEY raises.  That error is also all that a direct REQUEST_KEY_EXCHANGE returns then (rules R17, R302).
KEYV, KEY and ECOUNT stay.  The model's choices: that the waiting procedure is an entry of `tasks` (log entry 9); that what
DERIVE_KEY raises is the failure that step 3 carries (log entry 22); that a failed encoding is the step's failure (log
entry 24). -/
def Obligations.FailedExchangeInstallsNoKey : Prop :=
  (∀ (s : State) (k n mark : Nat) (kp : KeyPair) (name : CommandName) (rest : List Input),
    s.inbox = .hostRun k :: rest → s.host.tasks[k]? = some (.awaiting name (.initStep n kp) mark) →
    let h := { s.host with tasks := s.host.tasks.eraseIdx k }
    (∀ a c, finalRecord (s.out.drop mark) = some (.error (a, c)) → step s = .next { s with
      inbox := rest, host := { h with results := h.results ++ [.keyExchangeFailure n (some (.failed a c))] } }) ∧
    (∀ p, finalRecord (s.out.drop mark) = some (.ok p) →
      let d := decodeResponse s.cfg p name s.host.protocolVersion s.host.unitType
      d.success = false → step s = .next { s with
        inbox := rest,
        host := { h with
          protocolVersion := if name = .hostProtocolVersion then none else s.host.protocolVersion,
          results := h.results ++ [.keyExchangeFailure n (some (.decoded d))] } })) ∧
  (∀ (s : State) (k n : Nat) (kp : KeyPair) (rest : List Input),
    s.inbox = .hostRun k :: rest → s.host.tasks[k]? = some (.initIssue n kp) →
    let d := commandDescriptor s.cfg (initCommand n)
    let args := encodeArgs s.cfg (initCommand n) [initArgument n kp] s.host.protocolVersion
    let h := { s.host with tasks := s.host.tasks.eraseIdx k }
    (args = none → step s = .next { s with
      inbox := rest, host := { h with results := h.results ++ [.keyExchangeFailure n (some .encodeFailed)] } }) ∧
    ∀ bytes, args = some bytes → ∃ u, exec (.exec d.1 d.2 bytes) { s with inbox := rest, host := h } = .next u ∧
      (s.proc = true ∨ u.proc = false → ∃ e, u.out = s.out ++ [.res (.error e)] ∧
        u.keyV = s.keyV ∧ u.key = s.key ∧ u.eCount = s.eCount ∧
        step s = .next { u with host :=
          { h with results := h.results ++ [.keyExchangeFailure n (some (.refused e))] } })) ∧
  ∀ (s : State) (k mark : Nat) (kp : KeyPair) (c : Continuation) (p : Bytes) (rest : List Input),
    c = .initStep 3 kp ∨ c = .report →
    s.inbox = .hostRun k :: rest → s.host.tasks[k]? = some (.awaiting .requestKeyExchange c mark) →
    finalRecord (s.out.drop mark) = some (.ok p) →
    let d := decodeResponse s.cfg p .requestKeyExchange s.host.protocolVersion s.host.unitType
    d.success = true → d.info.interKey.length ≠ 8 →
    step s = .next { s with
      inbox := rest,
      host := { s.host with
        tasks := s.host.tasks.eraseIdx k,
        results := s.host.results ++ [
          if c = .report then .command .requestKeyExchange (.raised .keyExchangeFailure)
          else .keyExchangeFailure 3 (some (.raised .keyExchangeFailure))] } }

/-- A successful step of the key exchange (rules R302, R303, R324, R329): after a response of step 1 or 2 that decodes to
success the procedure goes on to the next step; after one of step 3 with an 8-byte value the composed key is installed and
KEYV set, the host keeps what it derived, and INIT_ENCRYPTION returns; a direct REQUEST_KEY_EXCHANGE does the same and returns
the decoded response; nothing else changes.  That a waiting procedure stands
in `tasks`, and that DERIVE_KEY and KEY_INSTALL are part of the step that takes up the response, is the model's choice (log
entry 9). -/
def Obligations.CompletedExchangeInstallsTheKey : Prop :=
  (∀ (s : State) (k n mark : Nat) (kp : KeyPair) (p : Bytes) (rest : List Input), n = 1 ∨ n = 2 →
    s.inbox = .hostRun k :: rest → s.host.tasks[k]? = some (.awaiting (initCommand n) (.initStep n kp) mark) →
    finalRecord (s.out.drop mark) = some (.ok p) →
    (decodeResponse s.cfg p (initCommand n) s.host.protocolVersion s.host.unitType).success = true →
    step s = .next { s with
      inbox := rest, host := { s.host with tasks := s.host.tasks.eraseIdx k ++ [.initIssue (n + 1) kp] } }) ∧
  ∀ (s : State) (k mark hostRandom modulus : Nat) (kp : KeyPair) (c : Continuation) (p : Bytes) (rest : List Input),
    c = .initStep 3 kp ∨ c = .report →
    s.inbox = .hostRun k :: rest → s.host.tasks[k]? = some (.awaiting .requestKeyExchange c mark) →
    finalRecord (s.out.drop mark) = some (.ok p) →
    s.host.hostRandom = some hostRandom → s.host.modulus = some modulus →
    let d := decodeResponse s.cfg p .requestKeyExchange s.host.protocolVersion s.host.unitType
    let key := modexp (fromLe d.info.interKey) hostRandom modulus
    d.success = true → d.info.interKey.length = 8 →
    step s = .next { s with
      inbox := rest, keyV := true, key := le64 s.cfg.fixedKey ++ le64 (BitVec.ofNat 64 key),
      out := s.out ++ [.res (.ok [])],
      host := { s.host with
        slaveInterKey := some (fromLe d.info.interKey), key := some key, tasks := s.host.tasks.eraseIdx k,
        results := s.host.results ++ [
          if c = .report then .command .requestKeyExchange (.decoded d) else .initDone] } }

/-- What the responses but a successful key exchange teach the host (rule R329), shown on a direct command: a successful
setup or unit-data response records the protocolVersion and unitType it carries, a HOST_PROTOCOL_VERSION response without
success clears the learned protocolVersion, and no other response changes either; the command returns the decoded response
(rule R322).  The model's choices: a response without a value leaves what was known (log entry 23); a direct POLL emits no
event (log entry 27); the waiting command is an entry of `tasks` that `hostRun` takes up, and what it returns is appended to
`results` (log entry 9). -/
def Obligations.ResponsesTeachTheHost : Prop :=
  ∀ (s : State) (k mark : Nat) (name : CommandName) (p : Bytes) (rest : List Input),
    s.inbox = .hostRun k :: rest → s.host.tasks[k]? = some (.awaiting name .report mark) →
    finalRecord (s.out.drop mark) = some (.ok p) →
    let d := decodeResponse s.cfg p name s.host.protocolVersion s.host.unitType
    (name = .requestKeyExchange → d.success = false) →
    let teaches := (name = .setupRequest ∨ name = .unitData) ∧ d.success = true
    step s = .next { s with
      inbox := rest,
      host := { s.host with
        protocolVersion :=
          if teaches then d.info.protocolVersion.or s.host.protocolVersion
          else if name = .hostProtocolVersion ∧ d.success = false then none else s.host.protocolVersion,
        unitType := if teaches then d.info.unitType.or s.host.unitType else s.host.unitType,
        tasks := s.host.tasks.eraseIdx k,
        results := s.host.results ++ [.command name (.decoded d)] } }

/-- The ends of ENABLE (rules R325, R327): after a response that decodes to success `enabled` is set and POLL(true) is
made, which starts polling, and a cycle unless polling was running already, and then ENABLE returns the response; while a
command is in flight that POLL waits, and ENABLE with it; after a failure or a response without success neither `enabled` nor
`polling` changes, and that is what ENABLE returns; no register of the block changes.  The model's choices: it waits as an
entry of `tasks` (log entry 9); "r succeeded" needs a decoded success (log entry 17). -/
def Obligations.EnableSuccessStartsPolling : Prop :=
  (∀ (s : State) (k mark : Nat) (p : Bytes) (rest : List Input),
    s.inbox = .hostRun k :: rest → s.host.tasks[k]? = some (.awaiting .enable .enable mark) →
    finalRecord (s.out.drop mark) = some (.ok p) →
    let d := decodeResponse s.cfg p .enable s.host.protocolVersion s.host.unitType
    d.success = true →
    let h := { s.host with enabled := true, tasks := s.host.tasks.eraseIdx k }
    (s.proc = false → step s = .next { s with
      inbox := rest,
      host := { h with
        polling := true, pollScheduled := !s.host.polling || s.host.pollScheduled,
        results := s.host.results ++ [.command .enable (.decoded d)] } }) ∧
    (s.proc = true → step s = .next { s with
      inbox := rest, host := { h with tasks := h.tasks ++ [.pollWait true (some (.decoded d))] } })) ∧
  (∀ (s : State) (k : Nat) (o : CmdOutcome) (rest : List Input),
    s.inbox = .hostRun k :: rest → s.host.tasks[k]? = some (.pollWait true (some o)) →
    (s.proc = true → step s = .next { s with inbox := rest }) ∧
    (s.proc = false → step s = .next { s with
      inbox := rest,
      host := { s.host with
        polling := true, pollScheduled := !s.host.polling || s.host.pollScheduled,
        tasks := s.host.tasks.eraseIdx k, results := s.host.results ++ [.command .enable o] } })) ∧
  ∀ (s : State) (k mark : Nat) (rest : List Input),
    s.inbox = .hostRun k :: rest → s.host.tasks[k]? = some (.awaiting .enable .enable mark) →
    let h := { s.host with tasks := s.host.tasks.eraseIdx k }
    (∀ a c, finalRecord (s.out.drop mark) = some (.error (a, c)) → step s = .next { s with
      inbox := rest, host := { h with results := h.results ++ [.command .enable (.failed a c)] } }) ∧
    (∀ p, finalRecord (s.out.drop mark) = some (.ok p) →
      let d := decodeResponse s.cfg p .enable s.host.protocolVersion s.host.unitType
      d.success = false → step s = .next { s with
        inbox := rest, host := { h with results := h.results ++ [.command .enable (.decoded d)] } })

/-- ENABLE (rules R322, R325): where its arguments cannot be encoded it returns that and the block has seen nothing; otherwise
its command is issued, and a refusal is what it returns, the very error on RES; admitted, it waits for the command's final
record.  `enabled` and `polling` change on success only, not here.  That it waits as an entry of `tasks`, with the number of
outputs so far, is the model's choice (log entry 9), and so is what it returns when the encoding fails (log entry 24). -/
def Obligations.EnableIssuesItsCommand : Prop :=
  ∀ s : State,
    let d := commandDescriptor s.cfg .enable
    (encodeArgs s.cfg .enable [] s.host.protocolVersion = none → exec .enable s = .next { s with host :=
      { s.host with results := s.host.results ++ [.command .enable .encodeFailed] } }) ∧
    ∀ args, encodeArgs s.cfg .enable [] s.host.protocolVersion = some args →
      ∃ u, exec (.exec d.1 d.2 args) s = .next u ∧
        (s.proc = true ∨ u.proc = false → ∃ e, u.out = s.out ++ [.res (.error e)] ∧
          exec .enable s = .next { u with host :=
            { s.host with results := s.host.results ++ [.command .enable (.refused e)] } }) ∧
        (s.proc = false → u.proc = true → exec .enable s = .next { u with host :=
          { s.host with tasks := s.host.tasks ++ [.awaiting .enable .enable u.out.length] } })

/-- DISABLE (rule R326): polling stops before the command is issued, and a refusal is what it returns, the very error on RES;
while a command is in flight the whole of it waits, and once PROC is 0 it does what a DISABLE does then (rule R327).  A
response that decodes to success clears `enabled`; no end of it starts polling again.  The model's choices: a waiting DISABLE
stands in `tasks`, also while it waits for its command's final record, and POLL(false) and EXEC are one step (log entry 9); a
response without success leaves `enabled`, as "r succeeded" needs a decoded success (log entry 17); what it returns when the
encoding fails is log entry 24. -/
def Obligations.DisableStopsPollingFirst : Prop :=
  (∀ s : State,
    (s.proc = true → exec .disable s = .next { s with host :=
      { s.host with tasks := s.host.tasks ++ [.disableWait] } }) ∧
    (s.proc = false →
      let h := { s.host with polling := false, pollScheduled := false }
      let d := commandDescriptor s.cfg .disable
      (encodeArgs s.cfg .disable [] s.host.protocolVersion = none → exec .disable s = .next { s with host :=
        { h with results := h.results ++ [.command .disable .encodeFailed] } }) ∧
      ∀ args, encodeArgs s.cfg .disable [] s.host.protocolVersion = some args →
        ∃ u, exec (.exec d.1 d.2 args) { s with host := h } = .next u ∧
          (u.proc = false → ∃ e, u.out = s.out ++ [.res (.error e)] ∧
            exec .disable s = .next { u with host :=
              { h with results := h.results ++ [.command .disable (.refused e)] } }) ∧
          (u.proc = true → exec .disable s = .next { u with host :=
            { h with tasks := h.tasks ++ [.awaiting .disable .disable u.out.length] } }))) ∧
  (∀ (s : State) (k : Nat) (rest : List Input),
    s.inbox = .hostRun k :: rest → s.host.tasks[k]? = some .disableWait →
    (s.proc = true → step s = .next { s with inbox := rest }) ∧
    (s.proc = false → step s = exec .disable { s with
      inbox := rest, host := { s.host with tasks := s.host.tasks.eraseIdx k } })) ∧
  ∀ (s : State) (k mark : Nat) (rest : List Input),
    s.inbox = .hostRun k :: rest → s.host.tasks[k]? = some (.awaiting .disable .disable mark) →
    let h := { s.host with tasks := s.host.tasks.eraseIdx k }
    (∀ a c, finalRecord (s.out.drop mark) = some (.error (a, c)) → step s = .next { s with
      inbox := rest, host := { h with results := h.results ++ [.command .disable (.failed a c)] } }) ∧
    (∀ p, finalRecord (s.out.drop mark) = some (.ok p) →
      let d := decodeResponse s.cfg p .disable s.host.protocolVersion s.host.unitType
      step s = .next { s with
        inbox := rest,
        host := { h with
          enabled := s.host.enabled && !d.success, results := h.results ++ [.command .disable (.decoded d)] } })

/-- POLL (rule R327): it waits while a command is in flight; then a request for `true` starts polling and schedules a cycle,
or does nothing while polling already; a request for `false` stops polling and cancels the scheduled cycle.  A POLL that waits
does nothing while PROC is 1, and has that effect once PROC is 0.  That a waiting POLL is an entry of `tasks`, which `hostRun`
goes on with, is the model's choice (log entry 9). -/
def Obligations.PollSetsPolling : Prop :=
  (∀ (desired : Bool) (s : State),
    (s.proc = true → exec (.poll desired) s = .next { s with host :=
      { s.host with tasks := s.host.tasks ++ [.pollWait desired none] } }) ∧
    (s.proc = false → desired = true → s.host.polling = true → exec (.poll desired) s = .next s) ∧
    (s.proc = false → desired = true → s.host.polling = false → exec (.poll desired) s = .next { s with host :=
      { s.host with polling := true, pollScheduled := true } }) ∧
    (s.proc = false → desired = false → exec (.poll desired) s = .next { s with host :=
      { s.host with polling := false, pollScheduled := false } })) ∧
  ∀ (desired : Bool) (s : State) (k : Nat) (rest : List Input),
    s.inbox = .hostRun k :: rest → s.host.tasks[k]? = some (.pollWait desired none) →
    (s.proc = true → step s = .next { s with inbox := rest }) ∧
    (s.proc = false → step s =
      exec (.poll desired) { s with inbox := rest, host := { s.host with tasks := s.host.tasks.eraseIdx k } })

/-- The poll cycle (rule R328): the timer does nothing while no cycle is scheduled, and no command while not polling;
otherwise POLL is issued; an error, be it the encoder's, EXEC's refusal or the command's failure after its retries, stops
polling and is emitted as an `error` event; a response's events are emitted by name, in order, and the next cycle is
scheduled while polling.  The model's choices: the waiting cycle stands in `tasks` (log entry 9); a response that decodes
without success is no poll error and a failed encoding is one (log entries 17 and 24); at most one cycle is scheduled, so a
cycle that schedules the next while one is scheduled adds none (log entry 25); a cycle that comes due while a command is in
flight does not defer, but is refused (log entry 26). -/
def Obligations.PollCycleGoesOnOrStops : Prop :=
  (∀ (s : State) (rest : List Input), s.inbox = .pollTimer :: rest →
    let h := { s.host with pollScheduled := false }
    let d := commandDescriptor s.cfg .poll
    let args := encodeArgs s.cfg .poll [] s.host.protocolVersion
    (s.host.pollScheduled = false → step s = .next { s with inbox := rest }) ∧
    (s.host.polling = false → step s = .next { s with inbox := rest, host := h }) ∧
    (s.host.pollScheduled = true → s.host.polling = true → args = none → step s = .next { s with
      inbox := rest, host := { h with polling := false, events := h.events ++ [.error .encodeFailed] } }) ∧
    (s.host.pollScheduled = true → s.host.polling = true → ∀ bytes, args = some bytes →
      ∃ u, exec (.exec d.1 d.2 bytes) { s with inbox := rest, host := h } = .next u ∧
        (s.proc = true ∨ u.proc = false → ∃ e, u.out = s.out ++ [.res (.error e)] ∧
          step s = .next { u with host :=
            { h with polling := false, events := h.events ++ [.error (.refused e)] } }) ∧
        (s.proc = false → u.proc = true → step s = .next { u with host :=
          { h with tasks := h.tasks ++ [.awaiting .poll .pollCycle u.out.length] } }))) ∧
  ∀ (s : State) (k mark : Nat) (rest : List Input),
    s.inbox = .hostRun k :: rest → s.host.tasks[k]? = some (.awaiting .poll .pollCycle mark) →
    let h := { s.host with tasks := s.host.tasks.eraseIdx k }
    (∀ a c, finalRecord (s.out.drop mark) = some (.error (a, c)) → step s = .next { s with
      inbox := rest, host := { h with polling := false, events := h.events ++ [.error (.failed a c)] } }) ∧
    (∀ p, finalRecord (s.out.drop mark) = some (.ok p) →
      let d := decodeResponse s.cfg p .poll s.host.protocolVersion s.host.unitType
      step s = .next { s with
        inbox := rest,
        host := { h with
          pollScheduled := s.host.polling || s.host.pollScheduled,
          events := h.events ++ d.info.events.map .poll } })
end

