-- ==== Sys2Proof/Laws/Decode.lean ====
section
/-! SUPPORT. The small lemmas of the record's operands: reading an operand off the front of what the encoder wrote gives the
operand and the rest. -/

namespace Sys2Proof

open Sys2Proof.Machine

theorem takeByte_cons (b : Byte) (rest : Bytes) : takeByte (b :: rest) = .ok (b, rest) := rfl

theorem takeBytes_append (xs rest : Bytes) : takeBytes xs.length (xs ++ rest) = .ok (xs, rest) := by
  induction xs with
  | nil => rfl
  | cons x xs ih => simp [takeBytes, ih]

/-- What a read of `n` bytes gives is the first `n` bytes and the rest. -/
theorem takeBytes_ok {n : Nat} {bs xs rest : Bytes} (h : takeBytes n bs = .ok (xs, rest)) :
    bs = xs ++ rest ∧ xs.length = n := by
  induction n generalizing bs xs with
  | zero => cases h; exact ⟨rfl, rfl⟩
  | succ n ih =>
    cases bs with
    | nil => cases h
    | cons b bs =>
      simp only [takeBytes] at h
      split at h
      · next ys r hy =>
        cases h
        obtain ⟨h1, h2⟩ := ih hy
        exact ⟨by simp [h1], by simp [h2]⟩
      · cases h

theorem takeKey_append (k rest : Bytes) (h : k.length = 16) : takeKey (k ++ rest) = .ok (k, rest) := by
  unfold takeKey
  rw [← h]
  exact takeBytes_append k rest

theorem fromLe_lt (xs : Bytes) : fromLe xs < 256 ^ xs.length := by
  induction xs with
  | nil => decide
  | cons b bs ih =>
    have := b.isLt
    simp only [fromLe, List.length_cons, Nat.pow_succ]
    omega

theorem le16_length (v : BitVec 16) : (le16 v).length = 2 := rfl
theorem le32_length (v : BitVec 32) : (le32 v).length = 4 := rfl
theorem le64_length (v : BitVec 64) : (le64 v).length = 8 := rfl

theorem fromLe_le16 (v : BitVec 16) : fromLe (le16 v) = v.toNat := by
  have := v.isLt
  simp only [le16, fromLe, BitVec.extractLsb'_toNat, Nat.shiftRight_eq_div_pow]
  omega

theorem fromLe_le32 (v : BitVec 32) : fromLe (le32 v) = v.toNat := by
  have := v.isLt
  simp only [le32, fromLe, BitVec.extractLsb'_toNat, Nat.shiftRight_eq_div_pow]
  omega

theorem fromLe_le64 (v : BitVec 64) : fromLe (le64 v) = v.toNat := by
  have := v.isLt
  simp only [le64, fromLe, BitVec.extractLsb'_toNat, Nat.shiftRight_eq_div_pow]
  omega

/-- A byte string with its length before it is read back (rule R121). -/
theorem takeString_encode (s rest : Bytes) (h : s.length < 65536) :
    takeString (encodeString s ++ rest) = .ok (s, rest) := by
  have h1 : takeBytes 2 (le16 (BitVec.ofNat 16 s.length) ++ (s ++ rest)) =
      .ok (le16 (BitVec.ofNat 16 s.length), s ++ rest) :=
    takeBytes_append (le16 (BitVec.ofNat 16 s.length)) (s ++ rest)
  have h2 : fromLe (le16 (BitVec.ofNat 16 s.length)) = s.length := by
    rw [fromLe_le16, BitVec.toNat_ofNat]
    omega
  simp only [takeString, takeNumber, encodeString, List.append_assoc, h1, h2, takeBytes_append]

/-- An optional key is read back (rule R121). -/
theorem takeOptKey_encode (key : Option Bytes) (rest : Bytes) (h : wfOptKey key = true) :
    takeOptKey (encodeOptKey key ++ rest) = .ok (key, rest) := by
  cases key with
  | none => rfl
  | some k =>
    have hk : k.length = 16 := by simpa [wfOptKey, wfKey] using h
    simp [takeOptKey, encodeOptKey, takeByte, takeKey_append k rest hk]

/-- The flags byte is read back (rule R121). -/
theorem takeFlags_encode (f : CmdFlags) (rest : Bytes) : takeFlags (encodeFlags f :: rest) = .ok (f, rest) := by
  obtain ⟨a, b, c, d⟩ := f
  cases a <;> cases b <;> cases c <;> cases d <;> rfl

end Sys2Proof
end

