-- ==== Sys2Proof/Laws/State.lean ====
section
/-! SUPPORT. One lemma per field of State for each update of Machine/Ops.lean: what the update does to that field. -/

namespace Sys2Proof.Machine

/-! ### Parameters -/

/-- A parameter that rule R13 fixes has its one value. -/
@[simp] theorem fixed_val {α : Type} {v : α} (x : Fixed v) : x.val = v := x.2

/-- At least one attempt is configured (rule R13). -/
theorem one_le_commandRetries (s : State) : 1 ≤ s.cfg.commandRetries.val := s.cfg.commandRetries.2

/-! ### emit -/

@[simp] theorem State.emit_cfg (s : State) (o : Output) : (s.emit o).cfg = s.cfg := rfl
@[simp] theorem State.emit_rxs (s : State) (o : Output) : (s.emit o).rxs = s.rxs := rfl
@[simp] theorem State.emit_rxBuf (s : State) (o : Output) : (s.emit o).rxBuf = s.rxBuf := rfl
@[simp] theorem State.emit_seq (s : State) (o : Output) : (s.emit o).seq = s.seq := rfl
@[simp] theorem State.emit_eCount (s : State) (o : Output) : (s.emit o).eCount = s.eCount := rfl
@[simp] theorem State.emit_keyV (s : State) (o : Output) : (s.emit o).keyV = s.keyV := rfl
@[simp] theorem State.emit_key (s : State) (o : Output) : (s.emit o).key = s.key := rfl
@[simp] theorem State.emit_proc (s : State) (o : Output) : (s.emit o).proc = s.proc := rfl
@[simp] theorem State.emit_sess (s : State) (o : Output) : (s.emit o).sess = s.sess := rfl
@[simp] theorem State.emit_attempt (s : State) (o : Output) : (s.emit o).attempt = s.attempt := rfl
@[simp] theorem State.emit_oSeq (s : State) (o : Output) : (s.emit o).oSeq = s.oSeq := rfl
@[simp] theorem State.emit_txBuf (s : State) (o : Output) : (s.emit o).txBuf = s.txBuf := rfl
@[simp] theorem State.emit_tmr (s : State) (o : Output) : (s.emit o).tmr = s.tmr := rfl
@[simp] theorem State.emit_lastCause (s : State) (o : Output) : (s.emit o).lastCause = s.lastCause := rfl
@[simp] theorem State.emit_out (s : State) (o : Output) : (s.emit o).out = s.out ++ [o] := rfl
@[simp] theorem State.emit_host (s : State) (o : Output) : (s.emit o).host = s.host := rfl
@[simp] theorem State.emit_inbox (s : State) (o : Output) : (s.emit o).inbox = s.inbox := rfl
@[simp] theorem State.emit_draws (s : State) (o : Output) : (s.emit o).draws = s.draws := rfl
@[simp] theorem State.emit_drawCount (s : State) (o : Output) : (s.emit o).drawCount = s.drawCount := rfl

/-! ### respond -/

@[simp] theorem State.respond_cfg (s : State) (r : Res) : (s.respond r).cfg = s.cfg := rfl
@[simp] theorem State.respond_rxs (s : State) (r : Res) : (s.respond r).rxs = s.rxs := rfl
@[simp] theorem State.respond_rxBuf (s : State) (r : Res) : (s.respond r).rxBuf = s.rxBuf := rfl
@[simp] theorem State.respond_seq (s : State) (r : Res) : (s.respond r).seq = s.seq := rfl
@[simp] theorem State.respond_eCount (s : State) (r : Res) : (s.respond r).eCount = s.eCount := rfl
@[simp] theorem State.respond_keyV (s : State) (r : Res) : (s.respond r).keyV = s.keyV := rfl
@[simp] theorem State.respond_key (s : State) (r : Res) : (s.respond r).key = s.key := rfl
@[simp] theorem State.respond_proc (s : State) (r : Res) : (s.respond r).proc = s.proc := rfl
@[simp] theorem State.respond_sess (s : State) (r : Res) : (s.respond r).sess = s.sess := rfl
@[simp] theorem State.respond_attempt (s : State) (r : Res) : (s.respond r).attempt = s.attempt := rfl
@[simp] theorem State.respond_oSeq (s : State) (r : Res) : (s.respond r).oSeq = s.oSeq := rfl
@[simp] theorem State.respond_txBuf (s : State) (r : Res) : (s.respond r).txBuf = s.txBuf := rfl
@[simp] theorem State.respond_tmr (s : State) (r : Res) : (s.respond r).tmr = s.tmr := rfl
@[simp] theorem State.respond_lastCause (s : State) (r : Res) : (s.respond r).lastCause = s.lastCause := rfl
@[simp] theorem State.respond_out (s : State) (r : Res) : (s.respond r).out = s.out ++ [.res r] := rfl
@[simp] theorem State.respond_host (s : State) (r : Res) : (s.respond r).host = s.host := rfl
@[simp] theorem State.respond_inbox (s : State) (r : Res) : (s.respond r).inbox = s.inbox := rfl
@[simp] theorem State.respond_draws (s : State) (r : Res) : (s.respond r).draws = s.draws := rfl
@[simp] theorem State.respond_drawCount (s : State) (r : Res) : (s.respond r).drawCount = s.drawCount := rfl

/-! ### transmit -/

@[simp] theorem State.transmit_cfg (s : State) : (s.transmit).cfg = s.cfg := rfl
@[simp] theorem State.transmit_rxs (s : State) : (s.transmit).rxs = s.rxs := rfl
@[simp] theorem State.transmit_rxBuf (s : State) : (s.transmit).rxBuf = s.rxBuf := rfl
@[simp] theorem State.transmit_seq (s : State) : (s.transmit).seq = s.seq := rfl
@[simp] theorem State.transmit_eCount (s : State) : (s.transmit).eCount = s.eCount := rfl
@[simp] theorem State.transmit_keyV (s : State) : (s.transmit).keyV = s.keyV := rfl
@[simp] theorem State.transmit_key (s : State) : (s.transmit).key = s.key := rfl
@[simp] theorem State.transmit_proc (s : State) : (s.transmit).proc = s.proc := rfl
@[simp] theorem State.transmit_sess (s : State) : (s.transmit).sess = s.sess := rfl
@[simp] theorem State.transmit_attempt (s : State) : (s.transmit).attempt = s.attempt := rfl
@[simp] theorem State.transmit_oSeq (s : State) : (s.transmit).oSeq = s.oSeq := rfl
@[simp] theorem State.transmit_txBuf (s : State) : (s.transmit).txBuf = s.txBuf := rfl
@[simp] theorem State.transmit_tmr (s : State) : (s.transmit).tmr = s.tmr := rfl
@[simp] theorem State.transmit_lastCause (s : State) : (s.transmit).lastCause = s.lastCause := rfl
@[simp] theorem State.transmit_out (s : State) : (s.transmit).out = s.out ++ [.txd s.txBuf] := rfl
@[simp] theorem State.transmit_host (s : State) : (s.transmit).host = s.host := rfl
@[simp] theorem State.transmit_inbox (s : State) : (s.transmit).inbox = s.inbox := rfl
@[simp] theorem State.transmit_draws (s : State) : (s.transmit).draws = s.draws := rfl
@[simp] theorem State.transmit_drawCount (s : State) : (s.transmit).drawCount = s.drawCount := rfl

/-! ### setRx -/

@[simp] theorem State.setRx_cfg (s : State) (x : RxState) (b : Bytes) : (s.setRx x b).cfg = s.cfg := rfl
@[simp] theorem State.setRx_rxs (s : State) (x : RxState) (b : Bytes) : (s.setRx x b).rxs = x := rfl
@[simp] theorem State.setRx_rxBuf (s : State) (x : RxState) (b : Bytes) : (s.setRx x b).rxBuf = b := rfl
@[simp] theorem State.setRx_seq (s : State) (x : RxState) (b : Bytes) : (s.setRx x b).seq = s.seq := rfl
@[simp] theorem State.setRx_eCount (s : State) (x : RxState) (b : Bytes) : (s.setRx x b).eCount = s.eCount := rfl
@[simp] theorem State.setRx_keyV (s : State) (x : RxState) (b : Bytes) : (s.setRx x b).keyV = s.keyV := rfl
@[simp] theorem State.setRx_key (s : State) (x : RxState) (b : Bytes) : (s.setRx x b).key = s.key := rfl
@[simp] theorem State.setRx_proc (s : State) (x : RxState) (b : Bytes) : (s.setRx x b).proc = s.proc := rfl
@[simp] theorem State.setRx_sess (s : State) (x : RxState) (b : Bytes) : (s.setRx x b).sess = s.sess := rfl
@[simp] theorem State.setRx_attempt (s : State) (x : RxState) (b : Bytes) : (s.setRx x b).attempt = s.attempt := rfl
@[simp] theorem State.setRx_oSeq (s : State) (x : RxState) (b : Bytes) : (s.setRx x b).oSeq = s.oSeq := rfl
@[simp] theorem State.setRx_txBuf (s : State) (x : RxState) (b : Bytes) : (s.setRx x b).txBuf = s.txBuf := rfl
@[simp] theorem State.setRx_tmr (s : State) (x : RxState) (b : Bytes) : (s.setRx x b).tmr = s.tmr := rfl
@[simp] theorem State.setRx_lastCause (s : State) (x : RxState) (b : Bytes) : (s.setRx x b).lastCause = s.lastCause := rfl
@[simp] theorem State.setRx_out (s : State) (x : RxState) (b : Bytes) : (s.setRx x b).out = s.out := rfl
@[simp] theorem State.setRx_host (s : State) (x : RxState) (b : Bytes) : (s.setRx x b).host = s.host := rfl
@[simp] theorem State.setRx_inbox (s : State) (x : RxState) (b : Bytes) : (s.setRx x b).inbox = s.inbox := rfl
@[simp] theorem State.setRx_draws (s : State) (x : RxState) (b : Bytes) : (s.setRx x b).draws = s.draws := rfl
@[simp] theorem State.setRx_drawCount (s : State) (x : RxState) (b : Bytes) : (s.setRx x b).drawCount = s.drawCount := rfl

/-! ### setSeq -/

@[simp] theorem State.setSeq_cfg (s : State) (b : Bool) : (s.setSeq b).cfg = s.cfg := rfl
@[simp] theorem State.setSeq_rxs (s : State) (b : Bool) : (s.setSeq b).rxs = s.rxs := rfl
@[simp] theorem State.setSeq_rxBuf (s : State) (b : Bool) : (s.setSeq b).rxBuf = s.rxBuf := rfl
@[simp] theorem State.setSeq_seq (s : State) (b : Bool) : (s.setSeq b).seq = b := rfl
@[simp] theorem State.setSeq_eCount (s : State) (b : Bool) : (s.setSeq b).eCount = s.eCount := rfl
@[simp] theorem State.setSeq_keyV (s : State) (b : Bool) : (s.setSeq b).keyV = s.keyV := rfl
@[simp] theorem State.setSeq_key (s : State) (b : Bool) : (s.setSeq b).key = s.key := rfl
@[simp] theorem State.setSeq_proc (s : State) (b : Bool) : (s.setSeq b).proc = s.proc := rfl
@[simp] theorem State.setSeq_sess (s : State) (b : Bool) : (s.setSeq b).sess = s.sess := rfl
@[simp] theorem State.setSeq_attempt (s : State) (b : Bool) : (s.setSeq b).attempt = s.attempt := rfl
@[simp] theorem State.setSeq_oSeq (s : State) (b : Bool) : (s.setSeq b).oSeq = s.oSeq := rfl
@[simp] theorem State.setSeq_txBuf (s : State) (b : Bool) : (s.setSeq b).txBuf = s.txBuf := rfl
@[simp] theorem State.setSeq_tmr (s : State) (b : Bool) : (s.setSeq b).tmr = s.tmr := rfl
@[simp] theorem State.setSeq_lastCause (s : State) (b : Bool) : (s.setSeq b).lastCause = s.lastCause := rfl
@[simp] theorem State.setSeq_out (s : State) (b : Bool) : (s.setSeq b).out = s.out := rfl
@[simp] theorem State.setSeq_host (s : State) (b : Bool) : (s.setSeq b).host = s.host := rfl
@[simp] theorem State.setSeq_inbox (s : State) (b : Bool) : (s.setSeq b).inbox = s.inbox := rfl
@[simp] theorem State.setSeq_draws (s : State) (b : Bool) : (s.setSeq b).draws = s.draws := rfl
@[simp] theorem State.setSeq_drawCount (s : State) (b : Bool) : (s.setSeq b).drawCount = s.drawCount := rfl

/-! ### countUp -/

@[simp] theorem State.countUp_cfg (s : State) : (s.countUp).cfg = s.cfg := rfl
@[simp] theorem State.countUp_rxs (s : State) : (s.countUp).rxs = s.rxs := rfl
@[simp] theorem State.countUp_rxBuf (s : State) : (s.countUp).rxBuf = s.rxBuf := rfl
@[simp] theorem State.countUp_seq (s : State) : (s.countUp).seq = s.seq := rfl
@[simp] theorem State.countUp_eCount (s : State) : (s.countUp).eCount = s.eCount + 1 := rfl
@[simp] theorem State.countUp_keyV (s : State) : (s.countUp).keyV = s.keyV := rfl
@[simp] theorem State.countUp_key (s : State) : (s.countUp).key = s.key := rfl
@[simp] theorem State.countUp_proc (s : State) : (s.countUp).proc = s.proc := rfl
@[simp] theorem State.countUp_sess (s : State) : (s.countUp).sess = s.sess := rfl
@[simp] theorem State.countUp_attempt (s : State) : (s.countUp).attempt = s.attempt := rfl
@[simp] theorem State.countUp_oSeq (s : State) : (s.countUp).oSeq = s.oSeq := rfl
@[simp] theorem State.countUp_txBuf (s : State) : (s.countUp).txBuf = s.txBuf := rfl
@[simp] theorem State.countUp_tmr (s : State) : (s.countUp).tmr = s.tmr := rfl
@[simp] theorem State.countUp_lastCause (s : State) : (s.countUp).lastCause = s.lastCause := rfl
@[simp] theorem State.countUp_out (s : State) : (s.countUp).out = s.out := rfl
@[simp] theorem State.countUp_host (s : State) : (s.countUp).host = s.host := rfl
@[simp] theorem State.countUp_inbox (s : State) : (s.countUp).inbox = s.inbox := rfl
@[simp] theorem State.countUp_draws (s : State) : (s.countUp).draws = s.draws := rfl
@[simp] theorem State.countUp_drawCount (s : State) : (s.countUp).drawCount = s.drawCount := rfl

/-! ### loadKey -/

@[simp] theorem State.loadKey_cfg (s : State) (k : Bytes) : (s.loadKey k).cfg = s.cfg := rfl
@[simp] theorem State.loadKey_rxs (s : State) (k : Bytes) : (s.loadKey k).rxs = s.rxs := rfl
@[simp] theorem State.loadKey_rxBuf (s : State) (k : Bytes) : (s.loadKey k).rxBuf = s.rxBuf := rfl
@[simp] theorem State.loadKey_seq (s : State) (k : Bytes) : (s.loadKey k).seq = s.seq := rfl
@[simp] theorem State.loadKey_eCount (s : State) (k : Bytes) : (s.loadKey k).eCount = s.eCount := rfl
@[simp] theorem State.loadKey_keyV (s : State) (k : Bytes) : (s.loadKey k).keyV = true := rfl
@[simp] theorem State.loadKey_key (s : State) (k : Bytes) : (s.loadKey k).key = k := rfl
@[simp] theorem State.loadKey_proc (s : State) (k : Bytes) : (s.loadKey k).proc = s.proc := rfl
@[simp] theorem State.loadKey_sess (s : State) (k : Bytes) : (s.loadKey k).sess = s.sess := rfl
@[simp] theorem State.loadKey_attempt (s : State) (k : Bytes) : (s.loadKey k).attempt = s.attempt := rfl
@[simp] theorem State.loadKey_oSeq (s : State) (k : Bytes) : (s.loadKey k).oSeq = s.oSeq := rfl
@[simp] theorem State.loadKey_txBuf (s : State) (k : Bytes) : (s.loadKey k).txBuf = s.txBuf := rfl
@[simp] theorem State.loadKey_tmr (s : State) (k : Bytes) : (s.loadKey k).tmr = s.tmr := rfl
@[simp] theorem State.loadKey_lastCause (s : State) (k : Bytes) : (s.loadKey k).lastCause = s.lastCause := rfl
@[simp] theorem State.loadKey_out (s : State) (k : Bytes) : (s.loadKey k).out = s.out := rfl
@[simp] theorem State.loadKey_host (s : State) (k : Bytes) : (s.loadKey k).host = s.host := rfl
@[simp] theorem State.loadKey_inbox (s : State) (k : Bytes) : (s.loadKey k).inbox = s.inbox := rfl
@[simp] theorem State.loadKey_draws (s : State) (k : Bytes) : (s.loadKey k).draws = s.draws := rfl
@[simp] theorem State.loadKey_drawCount (s : State) (k : Bytes) : (s.loadKey k).drawCount = s.drawCount := rfl

/-! ### dropKey -/

@[simp] theorem State.dropKey_cfg (s : State) : (s.dropKey).cfg = s.cfg := rfl
@[simp] theorem State.dropKey_rxs (s : State) : (s.dropKey).rxs = s.rxs := rfl
@[simp] theorem State.dropKey_rxBuf (s : State) : (s.dropKey).rxBuf = s.rxBuf := rfl
@[simp] theorem State.dropKey_seq (s : State) : (s.dropKey).seq = s.seq := rfl
@[simp] theorem State.dropKey_eCount (s : State) : (s.dropKey).eCount = 0 := rfl
@[simp] theorem State.dropKey_keyV (s : State) : (s.dropKey).keyV = false := rfl
@[simp] theorem State.dropKey_key (s : State) : (s.dropKey).key = s.key := rfl
@[simp] theorem State.dropKey_proc (s : State) : (s.dropKey).proc = s.proc := rfl
@[simp] theorem State.dropKey_sess (s : State) : (s.dropKey).sess = s.sess := rfl
@[simp] theorem State.dropKey_attempt (s : State) : (s.dropKey).attempt = s.attempt := rfl
@[simp] theorem State.dropKey_oSeq (s : State) : (s.dropKey).oSeq = s.oSeq := rfl
@[simp] theorem State.dropKey_txBuf (s : State) : (s.dropKey).txBuf = s.txBuf := rfl
@[simp] theorem State.dropKey_tmr (s : State) : (s.dropKey).tmr = s.tmr := rfl
@[simp] theorem State.dropKey_lastCause (s : State) : (s.dropKey).lastCause = s.lastCause := rfl
@[simp] theorem State.dropKey_out (s : State) : (s.dropKey).out = s.out := rfl
@[simp] theorem State.dropKey_host (s : State) : (s.dropKey).host = s.host := rfl
@[simp] theorem State.dropKey_inbox (s : State) : (s.dropKey).inbox = s.inbox := rfl
@[simp] theorem State.dropKey_draws (s : State) : (s.dropKey).draws = s.draws := rfl
@[simp] theorem State.dropKey_drawCount (s : State) : (s.dropKey).drawCount = s.drawCount := rfl

/-! ### newCommand -/

@[simp] theorem State.newCommand_cfg (s : State) (p : Bytes) (sb : Byte) : (s.newCommand p sb).cfg = s.cfg := rfl
@[simp] theorem State.newCommand_rxs (s : State) (p : Bytes) (sb : Byte) : (s.newCommand p sb).rxs = s.rxs := rfl
@[simp] theorem State.newCommand_rxBuf (s : State) (p : Bytes) (sb : Byte) : (s.newCommand p sb).rxBuf = s.rxBuf := rfl
@[simp] theorem State.newCommand_seq (s : State) (p : Bytes) (sb : Byte) : (s.newCommand p sb).seq = s.seq := rfl
@[simp] theorem State.newCommand_eCount (s : State) (p : Bytes) (sb : Byte) : (s.newCommand p sb).eCount = s.eCount := rfl
@[simp] theorem State.newCommand_keyV (s : State) (p : Bytes) (sb : Byte) : (s.newCommand p sb).keyV = s.keyV := rfl
@[simp] theorem State.newCommand_key (s : State) (p : Bytes) (sb : Byte) : (s.newCommand p sb).key = s.key := rfl
@[simp] theorem State.newCommand_proc (s : State) (p : Bytes) (sb : Byte) : (s.newCommand p sb).proc = s.proc := rfl
@[simp] theorem State.newCommand_sess (s : State) (p : Bytes) (sb : Byte) : (s.newCommand p sb).sess = s.sess := rfl
@[simp] theorem State.newCommand_attempt (s : State) (p : Bytes) (sb : Byte) : (s.newCommand p sb).attempt = 1 := rfl
@[simp] theorem State.newCommand_oSeq (s : State) (p : Bytes) (sb : Byte) : (s.newCommand p sb).oSeq = sb := rfl
@[simp] theorem State.newCommand_txBuf (s : State) (p : Bytes) (sb : Byte) : (s.newCommand p sb).txBuf = p := rfl
@[simp] theorem State.newCommand_tmr (s : State) (p : Bytes) (sb : Byte) : (s.newCommand p sb).tmr = s.tmr := rfl
@[simp] theorem State.newCommand_lastCause (s : State) (p : Bytes) (sb : Byte) : (s.newCommand p sb).lastCause = .ok := rfl
@[simp] theorem State.newCommand_out (s : State) (p : Bytes) (sb : Byte) : (s.newCommand p sb).out = s.out := rfl
@[simp] theorem State.newCommand_host (s : State) (p : Bytes) (sb : Byte) : (s.newCommand p sb).host = s.host := rfl
@[simp] theorem State.newCommand_inbox (s : State) (p : Bytes) (sb : Byte) : (s.newCommand p sb).inbox = s.inbox := rfl
@[simp] theorem State.newCommand_draws (s : State) (p : Bytes) (sb : Byte) : (s.newCommand p sb).draws = s.draws := rfl
@[simp] theorem State.newCommand_drawCount (s : State) (p : Bytes) (sb : Byte) : (s.newCommand p sb).drawCount = s.drawCount := rfl

/-! ### arm -/

@[simp] theorem State.arm_cfg (s : State) : (s.arm).cfg = s.cfg := rfl
@[simp] theorem State.arm_rxs (s : State) : (s.arm).rxs = s.rxs := rfl
@[simp] theorem State.arm_rxBuf (s : State) : (s.arm).rxBuf = s.rxBuf := rfl
@[simp] theorem State.arm_seq (s : State) : (s.arm).seq = s.seq := rfl
@[simp] theorem State.arm_eCount (s : State) : (s.arm).eCount = s.eCount := rfl
@[simp] theorem State.arm_keyV (s : State) : (s.arm).keyV = s.keyV := rfl
@[simp] theorem State.arm_key (s : State) : (s.arm).key = s.key := rfl
@[simp] theorem State.arm_proc (s : State) : (s.arm).proc = true := rfl
@[simp] theorem State.arm_sess (s : State) : (s.arm).sess = s.sess := rfl
@[simp] theorem State.arm_attempt (s : State) : (s.arm).attempt = s.attempt := rfl
@[simp] theorem State.arm_oSeq (s : State) : (s.arm).oSeq = s.oSeq := rfl
@[simp] theorem State.arm_txBuf (s : State) : (s.arm).txBuf = s.txBuf := rfl
@[simp] theorem State.arm_tmr (s : State) : (s.arm).tmr = true := rfl
@[simp] theorem State.arm_lastCause (s : State) : (s.arm).lastCause = s.lastCause := rfl
@[simp] theorem State.arm_out (s : State) : (s.arm).out = s.out := rfl
@[simp] theorem State.arm_host (s : State) : (s.arm).host = s.host := rfl
@[simp] theorem State.arm_inbox (s : State) : (s.arm).inbox = s.inbox := rfl
@[simp] theorem State.arm_draws (s : State) : (s.arm).draws = s.draws := rfl
@[simp] theorem State.arm_drawCount (s : State) : (s.arm).drawCount = s.drawCount := rfl

/-! ### disarm -/

@[simp] theorem State.disarm_cfg (s : State) : (s.disarm).cfg = s.cfg := rfl
@[simp] theorem State.disarm_rxs (s : State) : (s.disarm).rxs = s.rxs := rfl
@[simp] theorem State.disarm_rxBuf (s : State) : (s.disarm).rxBuf = s.rxBuf := rfl
@[simp] theorem State.disarm_seq (s : State) : (s.disarm).seq = s.seq := rfl
@[simp] theorem State.disarm_eCount (s : State) : (s.disarm).eCount = s.eCount := rfl
@[simp] theorem State.disarm_keyV (s : State) : (s.disarm).keyV = s.keyV := rfl
@[simp] theorem State.disarm_key (s : State) : (s.disarm).key = s.key := rfl
@[simp] theorem State.disarm_proc (s : State) : (s.disarm).proc = false := rfl
@[simp] theorem State.disarm_sess (s : State) : (s.disarm).sess = s.sess := rfl
@[simp] theorem State.disarm_attempt (s : State) : (s.disarm).attempt = s.attempt := rfl
@[simp] theorem State.disarm_oSeq (s : State) : (s.disarm).oSeq = s.oSeq := rfl
@[simp] theorem State.disarm_txBuf (s : State) : (s.disarm).txBuf = s.txBuf := rfl
@[simp] theorem State.disarm_tmr (s : State) : (s.disarm).tmr = false := rfl
@[simp] theorem State.disarm_lastCause (s : State) : (s.disarm).lastCause = s.lastCause := rfl
@[simp] theorem State.disarm_out (s : State) : (s.disarm).out = s.out := rfl
@[simp] theorem State.disarm_host (s : State) : (s.disarm).host = s.host := rfl
@[simp] theorem State.disarm_inbox (s : State) : (s.disarm).inbox = s.inbox := rfl
@[simp] theorem State.disarm_draws (s : State) : (s.disarm).draws = s.draws := rfl
@[simp] theorem State.disarm_drawCount (s : State) : (s.disarm).drawCount = s.drawCount := rfl

/-! ### setSess -/

@[simp] theorem State.setSess_cfg (s : State) (x : SessState) : (s.setSess x).cfg = s.cfg := rfl
@[simp] theorem State.setSess_rxs (s : State) (x : SessState) : (s.setSess x).rxs = s.rxs := rfl
@[simp] theorem State.setSess_rxBuf (s : State) (x : SessState) : (s.setSess x).rxBuf = s.rxBuf := rfl
@[simp] theorem State.setSess_seq (s : State) (x : SessState) : (s.setSess x).seq = s.seq := rfl
@[simp] theorem State.setSess_eCount (s : State) (x : SessState) : (s.setSess x).eCount = s.eCount := rfl
@[simp] theorem State.setSess_keyV (s : State) (x : SessState) : (s.setSess x).keyV = s.keyV := rfl
@[simp] theorem State.setSess_key (s : State) (x : SessState) : (s.setSess x).key = s.key := rfl
@[simp] theorem State.setSess_proc (s : State) (x : SessState) : (s.setSess x).proc = s.proc := rfl
@[simp] theorem State.setSess_sess (s : State) (x : SessState) : (s.setSess x).sess = x := rfl
@[simp] theorem State.setSess_attempt (s : State) (x : SessState) : (s.setSess x).attempt = s.attempt := rfl
@[simp] theorem State.setSess_oSeq (s : State) (x : SessState) : (s.setSess x).oSeq = s.oSeq := rfl
@[simp] theorem State.setSess_txBuf (s : State) (x : SessState) : (s.setSess x).txBuf = s.txBuf := rfl
@[simp] theorem State.setSess_tmr (s : State) (x : SessState) : (s.setSess x).tmr = s.tmr := rfl
@[simp] theorem State.setSess_lastCause (s : State) (x : SessState) : (s.setSess x).lastCause = s.lastCause := rfl
@[simp] theorem State.setSess_out (s : State) (x : SessState) : (s.setSess x).out = s.out := rfl
@[simp] theorem State.setSess_host (s : State) (x : SessState) : (s.setSess x).host = s.host := rfl
@[simp] theorem State.setSess_inbox (s : State) (x : SessState) : (s.setSess x).inbox = s.inbox := rfl
@[simp] theorem State.setSess_draws (s : State) (x : SessState) : (s.setSess x).draws = s.draws := rfl
@[simp] theorem State.setSess_drawCount (s : State) (x : SessState) : (s.setSess x).drawCount = s.drawCount := rfl

/-! ### setCause -/

@[simp] theorem State.setCause_cfg (s : State) (c : Status) : (s.setCause c).cfg = s.cfg := rfl
@[simp] theorem State.setCause_rxs (s : State) (c : Status) : (s.setCause c).rxs = s.rxs := rfl
@[simp] theorem State.setCause_rxBuf (s : State) (c : Status) : (s.setCause c).rxBuf = s.rxBuf := rfl
@[simp] theorem State.setCause_seq (s : State) (c : Status) : (s.setCause c).seq = s.seq := rfl
@[simp] theorem State.setCause_eCount (s : State) (c : Status) : (s.setCause c).eCount = s.eCount := rfl
@[simp] theorem State.setCause_keyV (s : State) (c : Status) : (s.setCause c).keyV = s.keyV := rfl
@[simp] theorem State.setCause_key (s : State) (c : Status) : (s.setCause c).key = s.key := rfl
@[simp] theorem State.setCause_proc (s : State) (c : Status) : (s.setCause c).proc = s.proc := rfl
@[simp] theorem State.setCause_sess (s : State) (c : Status) : (s.setCause c).sess = s.sess := rfl
@[simp] theorem State.setCause_attempt (s : State) (c : Status) : (s.setCause c).attempt = s.attempt := rfl
@[simp] theorem State.setCause_oSeq (s : State) (c : Status) : (s.setCause c).oSeq = s.oSeq := rfl
@[simp] theorem State.setCause_txBuf (s : State) (c : Status) : (s.setCause c).txBuf = s.txBuf := rfl
@[simp] theorem State.setCause_tmr (s : State) (c : Status) : (s.setCause c).tmr = s.tmr := rfl
@[simp] theorem State.setCause_lastCause (s : State) (c : Status) : (s.setCause c).lastCause = c := rfl
@[simp] theorem State.setCause_out (s : State) (c : Status) : (s.setCause c).out = s.out := rfl
@[simp] theorem State.setCause_host (s : State) (c : Status) : (s.setCause c).host = s.host := rfl
@[simp] theorem State.setCause_inbox (s : State) (c : Status) : (s.setCause c).inbox = s.inbox := rfl
@[simp] theorem State.setCause_draws (s : State) (c : Status) : (s.setCause c).draws = s.draws := rfl
@[simp] theorem State.setCause_drawCount (s : State) (c : Status) : (s.setCause c).drawCount = s.drawCount := rfl

/-! ### nextAttempt -/

@[simp] theorem State.nextAttempt_cfg (s : State) : (s.nextAttempt).cfg = s.cfg := rfl
@[simp] theorem State.nextAttempt_rxs (s : State) : (s.nextAttempt).rxs = s.rxs := rfl
@[simp] theorem State.nextAttempt_rxBuf (s : State) : (s.nextAttempt).rxBuf = s.rxBuf := rfl
@[simp] theorem State.nextAttempt_seq (s : State) : (s.nextAttempt).seq = s.seq := rfl
@[simp] theorem State.nextAttempt_eCount (s : State) : (s.nextAttempt).eCount = s.eCount := rfl
@[simp] theorem State.nextAttempt_keyV (s : State) : (s.nextAttempt).keyV = s.keyV := rfl
@[simp] theorem State.nextAttempt_key (s : State) : (s.nextAttempt).key = s.key := rfl
@[simp] theorem State.nextAttempt_proc (s : State) : (s.nextAttempt).proc = s.proc := rfl
@[simp] theorem State.nextAttempt_sess (s : State) : (s.nextAttempt).sess = s.sess := rfl
@[simp] theorem State.nextAttempt_attempt (s : State) : (s.nextAttempt).attempt = s.attempt + 1 := rfl
@[simp] theorem State.nextAttempt_oSeq (s : State) : (s.nextAttempt).oSeq = s.oSeq := rfl
@[simp] theorem State.nextAttempt_txBuf (s : State) : (s.nextAttempt).txBuf = s.txBuf := rfl
@[simp] theorem State.nextAttempt_tmr (s : State) : (s.nextAttempt).tmr = s.tmr := rfl
@[simp] theorem State.nextAttempt_lastCause (s : State) : (s.nextAttempt).lastCause = s.lastCause := rfl
@[simp] theorem State.nextAttempt_out (s : State) : (s.nextAttempt).out = s.out := rfl
@[simp] theorem State.nextAttempt_host (s : State) : (s.nextAttempt).host = s.host := rfl
@[simp] theorem State.nextAttempt_inbox (s : State) : (s.nextAttempt).inbox = s.inbox := rfl
@[simp] theorem State.nextAttempt_draws (s : State) : (s.nextAttempt).draws = s.draws := rfl
@[simp] theorem State.nextAttempt_drawCount (s : State) : (s.nextAttempt).drawCount = s.drawCount := rfl

/-! ### setHost -/

@[simp] theorem State.setHost_cfg (s : State) (h : HostSide) : (s.setHost h).cfg = s.cfg := rfl
@[simp] theorem State.setHost_rxs (s : State) (h : HostSide) : (s.setHost h).rxs = s.rxs := rfl
@[simp] theorem State.setHost_rxBuf (s : State) (h : HostSide) : (s.setHost h).rxBuf = s.rxBuf := rfl
@[simp] theorem State.setHost_seq (s : State) (h : HostSide) : (s.setHost h).seq = s.seq := rfl
@[simp] theorem State.setHost_eCount (s : State) (h : HostSide) : (s.setHost h).eCount = s.eCount := rfl
@[simp] theorem State.setHost_keyV (s : State) (h : HostSide) : (s.setHost h).keyV = s.keyV := rfl
@[simp] theorem State.setHost_key (s : State) (h : HostSide) : (s.setHost h).key = s.key := rfl
@[simp] theorem State.setHost_proc (s : State) (h : HostSide) : (s.setHost h).proc = s.proc := rfl
@[simp] theorem State.setHost_sess (s : State) (h : HostSide) : (s.setHost h).sess = s.sess := rfl
@[simp] theorem State.setHost_attempt (s : State) (h : HostSide) : (s.setHost h).attempt = s.attempt := rfl
@[simp] theorem State.setHost_oSeq (s : State) (h : HostSide) : (s.setHost h).oSeq = s.oSeq := rfl
@[simp] theorem State.setHost_txBuf (s : State) (h : HostSide) : (s.setHost h).txBuf = s.txBuf := rfl
@[simp] theorem State.setHost_tmr (s : State) (h : HostSide) : (s.setHost h).tmr = s.tmr := rfl
@[simp] theorem State.setHost_lastCause (s : State) (h : HostSide) : (s.setHost h).lastCause = s.lastCause := rfl
@[simp] theorem State.setHost_out (s : State) (h : HostSide) : (s.setHost h).out = s.out := rfl
@[simp] theorem State.setHost_host (s : State) (h : HostSide) : (s.setHost h).host = h := rfl
@[simp] theorem State.setHost_inbox (s : State) (h : HostSide) : (s.setHost h).inbox = s.inbox := rfl
@[simp] theorem State.setHost_draws (s : State) (h : HostSide) : (s.setHost h).draws = s.draws := rfl
@[simp] theorem State.setHost_drawCount (s : State) (h : HostSide) : (s.setHost h).drawCount = s.drawCount := rfl

/-! ### setInbox -/

@[simp] theorem State.setInbox_cfg (s : State) (is : List Input) : (s.setInbox is).cfg = s.cfg := rfl
@[simp] theorem State.setInbox_rxs (s : State) (is : List Input) : (s.setInbox is).rxs = s.rxs := rfl
@[simp] theorem State.setInbox_rxBuf (s : State) (is : List Input) : (s.setInbox is).rxBuf = s.rxBuf := rfl
@[simp] theorem State.setInbox_seq (s : State) (is : List Input) : (s.setInbox is).seq = s.seq := rfl
@[simp] theorem State.setInbox_eCount (s : State) (is : List Input) : (s.setInbox is).eCount = s.eCount := rfl
@[simp] theorem State.setInbox_keyV (s : State) (is : List Input) : (s.setInbox is).keyV = s.keyV := rfl
@[simp] theorem State.setInbox_key (s : State) (is : List Input) : (s.setInbox is).key = s.key := rfl
@[simp] theorem State.setInbox_proc (s : State) (is : List Input) : (s.setInbox is).proc = s.proc := rfl
@[simp] theorem State.setInbox_sess (s : State) (is : List Input) : (s.setInbox is).sess = s.sess := rfl
@[simp] theorem State.setInbox_attempt (s : State) (is : List Input) : (s.setInbox is).attempt = s.attempt := rfl
@[simp] theorem State.setInbox_oSeq (s : State) (is : List Input) : (s.setInbox is).oSeq = s.oSeq := rfl
@[simp] theorem State.setInbox_txBuf (s : State) (is : List Input) : (s.setInbox is).txBuf = s.txBuf := rfl
@[simp] theorem State.setInbox_tmr (s : State) (is : List Input) : (s.setInbox is).tmr = s.tmr := rfl
@[simp] theorem State.setInbox_lastCause (s : State) (is : List Input) : (s.setInbox is).lastCause = s.lastCause := rfl
@[simp] theorem State.setInbox_out (s : State) (is : List Input) : (s.setInbox is).out = s.out := rfl
@[simp] theorem State.setInbox_host (s : State) (is : List Input) : (s.setInbox is).host = s.host := rfl
@[simp] theorem State.setInbox_inbox (s : State) (is : List Input) : (s.setInbox is).inbox = is := rfl
@[simp] theorem State.setInbox_draws (s : State) (is : List Input) : (s.setInbox is).draws = s.draws := rfl
@[simp] theorem State.setInbox_drawCount (s : State) (is : List Input) : (s.setInbox is).drawCount = s.drawCount := rfl

/-! ### setDraws -/

@[simp] theorem State.setDraws_cfg (s : State) (q : List Nat) (n : Nat) : (s.setDraws q n).cfg = s.cfg := rfl
@[simp] theorem State.setDraws_rxs (s : State) (q : List Nat) (n : Nat) : (s.setDraws q n).rxs = s.rxs := rfl
@[simp] theorem State.setDraws_rxBuf (s : State) (q : List Nat) (n : Nat) : (s.setDraws q n).rxBuf = s.rxBuf := rfl
@[simp] theorem State.setDraws_seq (s : State) (q : List Nat) (n : Nat) : (s.setDraws q n).seq = s.seq := rfl
@[simp] theorem State.setDraws_eCount (s : State) (q : List Nat) (n : Nat) : (s.setDraws q n).eCount = s.eCount := rfl
@[simp] theorem State.setDraws_keyV (s : State) (q : List Nat) (n : Nat) : (s.setDraws q n).keyV = s.keyV := rfl
@[simp] theorem State.setDraws_key (s : State) (q : List Nat) (n : Nat) : (s.setDraws q n).key = s.key := rfl
@[simp] theorem State.setDraws_proc (s : State) (q : List Nat) (n : Nat) : (s.setDraws q n).proc = s.proc := rfl
@[simp] theorem State.setDraws_sess (s : State) (q : List Nat) (n : Nat) : (s.setDraws q n).sess = s.sess := rfl
@[simp] theorem State.setDraws_attempt (s : State) (q : List Nat) (n : Nat) : (s.setDraws q n).attempt = s.attempt := rfl
@[simp] theorem State.setDraws_oSeq (s : State) (q : List Nat) (n : Nat) : (s.setDraws q n).oSeq = s.oSeq := rfl
@[simp] theorem State.setDraws_txBuf (s : State) (q : List Nat) (n : Nat) : (s.setDraws q n).txBuf = s.txBuf := rfl
@[simp] theorem State.setDraws_tmr (s : State) (q : List Nat) (n : Nat) : (s.setDraws q n).tmr = s.tmr := rfl
@[simp] theorem State.setDraws_lastCause (s : State) (q : List Nat) (n : Nat) : (s.setDraws q n).lastCause = s.lastCause := rfl
@[simp] theorem State.setDraws_out (s : State) (q : List Nat) (n : Nat) : (s.setDraws q n).out = s.out := rfl
@[simp] theorem State.setDraws_host (s : State) (q : List Nat) (n : Nat) : (s.setDraws q n).host = s.host := rfl
@[simp] theorem State.setDraws_inbox (s : State) (q : List Nat) (n : Nat) : (s.setDraws q n).inbox = s.inbox := rfl
@[simp] theorem State.setDraws_draws (s : State) (q : List Nat) (n : Nat) : (s.setDraws q n).draws = q := rfl
@[simp] theorem State.setDraws_drawCount (s : State) (q : List Nat) (n : Nat) : (s.setDraws q n).drawCount = n := rfl

end Sys2Proof.Machine
end

