-- ==== Sys2Proof/Laws/Ops.lean ====
section
/-! SUPPORT. One lemma for each shared operation that says once everything it can do: the draws, the exception entry and its
two returns, BUILD with its draw, EXEC's effect, FRAME_IN, the decoder's arms, the fetch. -/

namespace Sys2Proof.Machine

/-! ### Draws -/

/-- A draw changes the queue of draws and their count and nothing else. -/
theorem State.draw_state (s : State) : ∃ q n, s.draw.2 = s.setDraws q n := by
  unfold State.draw
  split
  · exact ⟨_, _, rfl⟩
  · exact ⟨_, _, rfl⟩

theorem State.drawBytes_length (n : Nat) (s : State) : (s.drawBytes n).1.length = n := by
  induction n generalizing s with
  | zero => rfl
  | succ n ih => simp [State.drawBytes, ih]

theorem State.drawBytes_state (n : Nat) (s : State) : ∃ q k, (s.drawBytes n).2 = s.setDraws q k := by
  induction n generalizing s with
  | zero => exact ⟨s.draws, s.drawCount, rfl⟩
  | succ n ih =>
    obtain ⟨q, k, h⟩ := s.draw_state
    obtain ⟨q', k', h'⟩ := ih s.draw.2
    exact ⟨q', k', by rw [State.drawBytes, h', h]; rfl⟩

/-! ### Taking an exception and returning from it -/

/-- `fail(c)` with attempts left: the cause, one attempt more, armed again, the same bytes (rule R258). -/
theorem failAttempt_retry (c : Status) (s : State) (h : s.attempt < s.cfg.commandRetries.val) :
    failAttempt c s = { s with
      lastCause := c, attempt := s.attempt + 1, proc := true, tmr := true, out := s.out ++ [.txd s.txBuf] } := by
  have : ¬ s.cfg.commandRetries.val ≤ s.attempt := by omega
  simp [failAttempt, this, State.resend, State.enterFailure, State.transmit, State.emit, State.arm,
    State.nextAttempt, State.setCause, State.disarm]

/-- `fail(c)` on the last attempt: the cause, the session IDLE, the failure on RES (rule R258). -/
theorem failAttempt_final (c : Status) (s : State) (h : s.cfg.commandRetries.val ≤ s.attempt) :
    failAttempt c s = { s with
      lastCause := c, proc := false, tmr := false, sess := .idle,
      out := s.out ++ [.res (.commandFailed s.attempt c)] } := by
  simp [failAttempt, h, State.giveUp, State.enterFailure, State.respond, State.emit, State.setSess,
    State.setCause, State.disarm]

/-- `complete(p)` (rule R259). -/
theorem completeCommand_eq (p : Bytes) (s : State) :
    completeCommand p s = { s with
      seq := !s.seq, proc := false, tmr := false, sess := .idle, out := s.out ++ [.res (.completed p)] } := rfl

theorem illegalOp_eq (s : State) : illegalOp s = { s with out := s.out ++ [.res (.error .illegalOp)] } := rfl

/-! ### BUILD with its draw, and EXEC -/

/-- BUILD's error is the one its first steps raise, or the AES unit's. -/
theorem buildPacket_ok_cases {reqArgs : Bool} {code : Byte} {args : Bytes} {sb : Byte} {key : Option Bytes} {e : Count}
    {pad w : Bytes} (h : buildPacket reqArgs code args sb key e pad = .ok w) :
    ∃ p data, buildPadLen reqArgs args key = .ok p ∧ buildData (code :: args) key e pad = .ok data ∧
      w = wirePacket sb data := by
  unfold buildPacket at h
  split at h
  · cases h
  · next p hp =>
    split at h
    · cases h
    · next data hd => exact ⟨p, data, hp, hd, by simpa using h.symm⟩

/-- BUILD with its draw: the error of its first steps with no draw, or the packet for a padding of the right length. -/
theorem buildWithDraw_cases (reqArgs : Bool) (code : Byte) (args : Bytes) (sb : Byte) (key : Option Bytes) (e : Count)
    (s : State) :
    (∃ err, buildPadLen reqArgs args key = .error err ∧ buildWithDraw reqArgs code args sb key e s = (.error err, s)) ∨
    (∃ p pad q n, buildPadLen reqArgs args key = .ok p ∧ pad.length = p ∧
      buildWithDraw reqArgs code args sb key e s = (buildPacket reqArgs code args sb key e pad, s.setDraws q n)) := by
  unfold buildWithDraw
  cases h : buildPadLen reqArgs args key with
  | error err => exact .inl ⟨err, rfl, rfl⟩
  | ok p =>
    obtain ⟨q, n, hs⟩ := s.drawBytes_state p
    exact .inr ⟨p, (s.drawBytes p).1, q, n, rfl, s.drawBytes_length p, by simp [hs]⟩

theorem refuseCommand_eq (e : Status) (s : State) :
    refuseCommand e s = ({ s with out := s.out ++ [.res (.error e)] }, e) := rfl

/-- Step 6 of EXEC, register by register (rule R251). -/
theorem admitCommand_eq (packet : Bytes) (sb : Byte) (s : State) :
    admitCommand packet sb s =
      ({ s with
          txBuf := packet, oSeq := sb, attempt := 1, lastCause := .ok, proc := true, tmr := true, sess := .awaiting,
          out := s.out ++ [.txd packet, .res (.ok [])] }, .ok) := by
  simp [admitCommand, State.newCommand, State.arm, State.setSess, State.transmit, State.respond, State.emit]

/-- The errors of BUILD's first steps. -/
theorem buildPadLen_error {reqArgs : Bool} {args : Bytes} {key : Option Bytes} {e : Status}
    (h : buildPadLen reqArgs args key = .error e) : e = .argsRequired ∨ e = .payloadTooLong := by
  unfold buildPadLen at h
  split at h
  · exact .inl (by simpa using h.symm)
  · cases key <;> (simp only at h; split at h) <;> cases h <;> exact .inr rfl

/-- The errors of BUILD. -/
theorem buildPacket_error {reqArgs : Bool} {code : Byte} {args : Bytes} {sb : Byte} {key : Option Bytes} {e : Count}
    {pad : Bytes} {err : Status} (h : buildPacket reqArgs code args sb key e pad = .error err) :
    err = .argsRequired ∨ err = .payloadTooLong ∨ err = .encryptionFailure := by
  unfold buildPacket at h
  split at h
  · next e' he =>
    have : e' = err := by simpa using h
    subst this
    rcases buildPadLen_error he with h | h <;> simp [h]
  · split at h
    · next e' hd =>
      have : e' = err := by simpa using h
      subst this
      unfold buildData at hd
      split at hd
      · cases hd
      · next k _ =>
        cases ha : aesEncrypt k (innerPlain e (code :: args) pad) with
        | ok c => rw [ha] at hd; cases hd
        | error err =>
          rw [ha] at hd
          unfold aesEncrypt at ha
          split at ha <;> cases ha
          cases hd
          exact .inr (.inr rfl)
    · cases h

/-- The errors an EXEC can be refused with (rule R251; `encryptionFailure` only for a KEY that is not 16 bytes). -/
abbrev ExecError (e : Status) : Prop :=
  e = .alreadyProcessing ∨ e = .unknownCommand ∨ e = .encryptionRequired ∨ e = .argsRequired ∨ e = .payloadTooLong ∨
    e = .encryptionFailure

/-- Steps 3 to 6 of EXEC: BUILD's error refuses the command, or BUILD's packet is admitted (rule R251). -/
theorem sendCommand_cases (flags : CmdFlags) (code : Byte) (args : Bytes) (s : State) :
    (∃ e q n, ExecError e ∧ sendCommand flags code args s =
      ({ s with draws := q, drawCount := n, out := s.out ++ [.res (.error e)] }, e)) ∨
    (∃ packet pad q n,
      buildPacket flags.reqArgs code args (outboundSeq s) (commandKey flags s) s.eCount pad = .ok packet ∧
      buildPadLen flags.reqArgs args (commandKey flags s) = .ok pad.length ∧
      sendCommand flags code args s =
        ({ s with
            txBuf := packet, oSeq := outboundSeq s, attempt := 1, lastCause := .ok, proc := true, tmr := true,
            sess := .awaiting, out := s.out ++ [.txd packet, .res (.ok [])], draws := q, drawCount := n }, .ok)) := by
  unfold sendCommand
  simp only
  rcases buildWithDraw_cases flags.reqArgs code args (outboundSeq s) (commandKey flags s) s.eCount s with
    ⟨err, h, hb⟩ | ⟨p, pad, q, n, hp, hl, hb⟩
  · rw [hb]
    exact .inl ⟨err, s.draws, s.drawCount, by rcases buildPadLen_error h with h | h <;> simp [ExecError, h], rfl⟩
  · rw [hb]
    cases h : buildPacket flags.reqArgs code args (outboundSeq s) (commandKey flags s) s.eCount pad with
    | error err =>
      exact .inl ⟨err, q, n, by rcases buildPacket_error h with h | h | h <;> simp [ExecError, h], rfl⟩
    | ok packet =>
      exact .inr ⟨packet, pad, q, n, h, by rw [hp, hl], by simp [admitCommand_eq, State.setDraws]⟩

/-- Everything EXEC can do: refuse the command with an error, no register changed but SEQ (by a SYNC that BUILD refuses)
and the draws; or admit it with BUILD's packet (rules R251, R253, R269). -/
theorem startCommand_cases (flags : CmdFlags) (code : Byte) (args : Bytes) (s : State) :
    (∃ e b q n, ExecError e ∧ (s.proc = true → b = s.seq) ∧ (flags.isSync = false → b = s.seq) ∧
      startCommand flags code args s =
        ({ s with seq := b, draws := q, drawCount := n, out := s.out ++ [.res (.error e)] }, e)) ∨
    (∃ packet pad q n, s.proc = false ∧ flags.known = true ∧ (flags.reqEnc = true → s.keyV = true) ∧
      buildPacket flags.reqArgs code args (seqByte (flags.isSync || s.seq) s.cfg.deviceId) (commandKey flags s) s.eCount
        pad = .ok packet ∧
      buildPadLen flags.reqArgs args (commandKey flags s) = .ok pad.length ∧
      startCommand flags code args s =
        ({ s with
            seq := flags.isSync || s.seq, txBuf := packet, oSeq := seqByte (flags.isSync || s.seq) s.cfg.deviceId,
            attempt := 1, lastCause := .ok, proc := true, tmr := true, sess := .awaiting,
            out := s.out ++ [.txd packet, .res (.ok [])], draws := q, drawCount := n }, .ok)) := by
  unfold startCommand
  by_cases hp : s.proc = true
  · exact .inl ⟨_, s.seq, s.draws, s.drawCount, .inl rfl, fun _ => rfl, fun _ => rfl, by simp [hp, refuseCommand_eq]⟩
  by_cases hk : flags.known = true
  swap
  · exact .inl ⟨_, s.seq, s.draws, s.drawCount, .inr (.inl rfl), fun _ => rfl, fun _ => rfl,
      by simp [hp, hk, refuseCommand_eq]⟩
  by_cases he : flags.reqEnc = true ∧ s.keyV = false
  · exact .inl ⟨_, s.seq, s.draws, s.drawCount, .inr (.inr (.inl rfl)), fun _ => rfl, fun _ => rfl,
      by simp [hp, hk, he, refuseCommand_eq]⟩
  have hs : (if flags.isSync then s.setSeq true else s) = s.setSeq (flags.isSync || s.seq) := by
    cases flags.isSync <;> rfl
  have hr : flags.reqEnc = true → s.keyV = true := fun h => by simpa [h] using he
  have hne : (flags.reqEnc && !s.keyV) = false := by
    cases h : flags.reqEnc <;> simp_all
  rw [if_neg hp, if_neg (by simp [hk]), if_neg (by simp [hne]), hs]
  rcases sendCommand_cases flags code args (s.setSeq (flags.isSync || s.seq)) with
    ⟨e, q, n, h1, h2⟩ | ⟨packet, pad, q, n, h1, h2, h3⟩
  · exact .inl ⟨e, flags.isSync || s.seq, q, n, h1, fun h => absurd h hp, fun h => by simp [h], h2⟩
  · exact .inr ⟨packet, pad, q, n, by simpa using hp, hk, hr, h1, h2, h3⟩

/-! ### FRAME_IN and TIMEOUT -/

/-- What FRAME_IN finds wrong with a frame: the sequence byte first, then EXTRACT's error (rules R255 and R256). -/
abbrev FrameRejected (f : Bytes) (s : State) (c : Status) : Prop :=
  ((f.length < 2 ∨ byteAt f 1 ≠ s.oSeq) ∧ c = .sequenceMismatch) ∨
    (2 ≤ f.length ∧ byteAt f 1 = s.oSeq ∧ extractPacket f (sessionKey s) s.eCount = .error c)

/-- Everything FRAME_IN can do: nothing while IDLE, a failed attempt, or the completion of the command (rule R255). -/
theorem frameIn_cases (f : Bytes) (s : State) :
    (s.sess = .idle ∧ frameIn f s = s) ∨
    (∃ c, s.sess = .awaiting ∧ FrameRejected f s c ∧ frameIn f s = failAttempt c s) ∨
    (∃ p, s.sess = .awaiting ∧ 2 ≤ f.length ∧ byteAt f 1 = s.oSeq ∧
      extractPacket f (sessionKey s) s.eCount = .ok p ∧
      frameIn f s = completeCommand p (if countsUp f s then s.countUp else s)) := by
  unfold frameIn
  cases hs : s.sess with
  | idle => exact .inl ⟨rfl, rfl⟩
  | awaiting =>
    by_cases h : f.length < 2 ∨ byteAt f 1 ≠ s.oSeq
    · exact .inr (.inl ⟨_, rfl, .inl ⟨h, rfl⟩, if_pos h⟩)
    · have h2 : 2 ≤ f.length ∧ byteAt f 1 = s.oSeq := by
        refine ⟨by omega, ?_⟩
        by_contra hc
        exact h (.inr hc)
      cases he : extractPacket f (sessionKey s) s.eCount with
      | error c => exact .inr (.inl ⟨c, rfl, .inr ⟨h2.1, h2.2, he⟩, by simp only [h, if_false]⟩)
      | ok p => exact .inr (.inr ⟨p, rfl, h2.1, h2.2, rfl, by simp only [h, if_false]⟩)

/-- The errors of EXTRACT (rule R230). -/
theorem extractPacket_error {f : Bytes} {key : Option Bytes} {e : Count} {c : Status}
    (h : extractPacket f key e = .error c) :
    c = .unknownResponse ∨ c = .crcMismatch ∨ c = .decryptionFailure ∨ c = .counterMismatch := by
  unfold extractPacket at h
  split at h
  · next e' he =>
    have : e' = c := by simpa using h
    subst this
    unfold checkFrame at he
    simp only at he
    split at he
    · simp_all
    · split at he
      · simp_all
      · split at he
        · simp_all
        · cases he
  · split at h
    · cases h
    · split at h
      · unfold openEnvelope at h
        split at h
        · simp_all
        · split at h
          · next e' he =>
            unfold aesDecrypt at he
            split at he <;> simp_all
          · split at h
            · simp_all
            · split at h
              · simp_all
              · cases h
      · cases h

/-! ### The Frame Decoder -/

theorem rxChunk_nil (s : State) : rxChunk [] s = s := rfl

theorem rxChunk_cons (b : Byte) (bs : Bytes) (s : State) : rxChunk (b :: bs) s = rxChunk bs (rxByte b s) := rfl

theorem rxChunk_append (xs ys : Bytes) (s : State) : rxChunk (xs ++ ys) s = rxChunk ys (rxChunk xs s) := by
  simp [rxChunk, List.foldl_append]

/-- Everything one byte can do: the registers of the decoder change and nothing else, or the frame that is complete is
handed to FRAME_IN on the emptied decoder (rules R161 and R168). -/
theorem rxByte_cases (b : Byte) (s : State) :
    (∃ r buf, rxByte b s = s.setRx r buf) ∨
    (∃ buf, frameComplete buf = true ∧ (s.rxs = .inFrame ∨ s.rxs = .awaitStuff) ∧ buf = s.rxBuf ++ [b] ∧
      rxByte b s = frameIn buf (s.setRx .idle [])) := by
  have append : ∀ c, c = b → (s.rxs = .inFrame ∨ s.rxs = .awaitStuff) →
      (∃ r buf, appendByte c s = s.setRx r buf) ∨
      (∃ buf, frameComplete buf = true ∧ (s.rxs = .inFrame ∨ s.rxs = .awaitStuff) ∧ buf = s.rxBuf ++ [b] ∧
        appendByte c s = frameIn buf (s.setRx .idle [])) := by
    rintro c rfl hs
    by_cases hc : frameComplete (s.rxBuf ++ [c]) = true
    · exact .inr ⟨_, hc, hs, rfl, by simp [appendByte, hc, handOff]⟩
    · exact .inl ⟨.inFrame, s.rxBuf ++ [c], by simp [appendByte, hc]⟩
  unfold rxByte
  cases hr : s.rxs with
  | idle =>
    by_cases hb : b = stx
    · exact .inl ⟨_, _, if_pos hb⟩
    · exact .inl ⟨s.rxs, s.rxBuf, if_neg hb⟩
  | inFrame =>
    by_cases hb : b = stx
    · by_cases hl : s.rxBuf.length = 1
      · exact .inl ⟨.idle, [], by simp only [hb, hl, if_true]⟩
      · exact .inl ⟨.awaitStuff, s.rxBuf, by simp only [hb, hl, if_true, if_false]⟩
    · simpa [hb, hr] using append b rfl (.inl hr)
  | awaitStuff =>
    by_cases hb : b = stx
    · simpa [hb, hr] using append stx hb.symm (.inr hr)
    · exact .inl ⟨_, _, if_neg hb⟩

/-- RX_FLUSH hands over a partial frame, or leaves the decoder IDLE (rule R171). -/
theorem rxFlush_cases (s : State) :
    (s.rxBuf ≠ [] ∧ rxFlush s = frameIn s.rxBuf (s.setRx .idle [])) ∨
    (s.rxBuf = [] ∧ rxFlush s = s.setRx .idle []) := by
  unfold rxFlush
  cases h : s.rxBuf with
  | nil => exact .inr ⟨rfl, by simp⟩
  | cons x xs => exact .inl ⟨by simp, by simp [handOff]⟩

end Sys2Proof.Machine
end

