-- ==== Sys2Proof/Laws/HostSide.lean ====
section
/-! SUPPORT. The host's side: each update of a host variable as one `setHost`, and what issuing a command and going on with a
procedure can do, said once. -/

namespace Sys2Proof.Machine

/-! ### The updates of the host's variables -/

theorem State.addResult_eq (s : State) (r : HostResult) :
    s.addResult r = s.setHost { s.host with results := s.host.results ++ [r] } := rfl

theorem State.storeKeyPair_eq (s : State) (kp : KeyPair) :
    s.storeKeyPair kp = s.setHost { s.host with
      generator := some kp.generator, modulus := some kp.modulus,
      hostRandom := some kp.hostRandom, hostInter := some kp.hostInter } := rfl

theorem State.storeDerived_eq (s : State) (d : DerivedKey) :
    s.storeDerived d = s.setHost { s.host with slaveInterKey := some d.slaveInterKey, key := some d.key } := rfl

theorem State.addTask_eq (s : State) (t : Task) :
    s.addTask t = s.setHost { s.host with tasks := s.host.tasks ++ [t] } := rfl

theorem State.dropTask_eq (s : State) (k : Nat) :
    s.dropTask k = s.setHost { s.host with tasks := s.host.tasks.eraseIdx k } := rfl

theorem State.notify_eq (s : State) (es : List HostEvent) :
    s.notify es = s.setHost { s.host with events := s.host.events ++ es } := rfl

theorem State.setEnabled_eq (s : State) (b : Bool) : s.setEnabled b = s.setHost { s.host with enabled := b } := rfl

theorem State.setPolling_eq (s : State) (polling scheduled : Bool) :
    s.setPolling polling scheduled = s.setHost { s.host with polling := polling, pollScheduled := scheduled } := rfl

theorem State.setLearned_eq (s : State) (v u : Option Nat) :
    s.setLearned v u = s.setHost { s.host with protocolVersion := v, unitType := u } := rfl

/-! ### The procedures -/

/-- The host's EXEC of a command by name: the encoder fails and the block sees nothing, EXEC refuses it, or EXEC admits it
(rules R321, R322 and R251). -/
theorem issueExec_cases (name : CommandName) (args : List Nat) (s : State) :
    (encodeArgs s.cfg name args s.host.protocolVersion = none ∧ issueExec name args s = (s, some .encodeFailed)) ∨
    ∃ bytes, encodeArgs s.cfg name args s.host.protocolVersion = some bytes ∧
      let u := (startCommand (commandDescriptor s.cfg name).1 (commandDescriptor s.cfg name).2 bytes s).1
      u.host = s.host ∧
      ((∃ e, ExecError e ∧ u.proc = s.proc ∧ u.out = s.out ++ [.res (.error e)] ∧
          issueExec name args s = (u, some (.refused e))) ∨
        (s.proc = false ∧ u.proc = true ∧ issueExec name args s = (u, none))) := by
  unfold issueExec
  cases encodeArgs s.cfg name args s.host.protocolVersion with
  | none => exact .inl ⟨rfl, rfl⟩
  | some bytes =>
    refine .inr ⟨bytes, rfl, ?_⟩
    simp only
    rcases startCommand_cases (commandDescriptor s.cfg name).1 (commandDescriptor s.cfg name).2 bytes s with
      ⟨e, b, q, n, he, _, _, h⟩ | ⟨packet, pad, q, n, hp, _, _, _, _, h⟩ <;> rw [h]
    · refine ⟨rfl, .inl ⟨e, he, rfl, rfl, ?_⟩⟩
      rcases he with he | he | he | he | he | he <;> subst he <;> rfl
    · exact ⟨rfl, .inr ⟨hp, rfl, rfl⟩⟩

/-- A procedure's command is admitted, and the procedure waits, or has ended, and the procedure goes on with its outcome. -/
theorem issueCommand_cases (name : CommandName) (args : List Nat) (k : Continuation) (s : State) :
    ((issueExec name args s).2 = none ∧
      issueCommand name args k s =
        (issueExec name args s).1.addTask (.awaiting name k (issueExec name args s).1.out.length)) ∨
    (∃ o, (issueExec name args s).2 = some o ∧ succeeded o = false ∧
      issueCommand name args k s = finishTask name k o (issueExec name args s).1) := by
  unfold issueCommand
  rcases issueExec_cases name args s with ⟨_, h⟩ | ⟨bytes, _, _, ⟨e, _, _, _, h⟩ | ⟨_, _, h⟩⟩ <;> rw [h]
  · exact .inr ⟨_, rfl, rfl, rfl⟩
  · exact .inr ⟨_, rfl, rfl, rfl⟩
  · exact .inl ⟨rfl, rfl⟩

/-- The effect of a poll request: nothing while polling already, else the two poll flags (rule R327). -/
theorem applyPoll_eq (desired : Bool) (s : State) :
    applyPoll desired s =
      s.setPolling desired (desired && (!s.host.polling || s.host.pollScheduled)) := by
  cases desired <;> cases h : s.host.polling <;> simp [applyPoll, State.setPolling, State.setHost, h]
  rw [← h]

/-- A request of the poll procedure waits, or takes effect and returns (rules R325 and R327). -/
theorem requestPoll_cases (desired : Bool) (enabling : Option CmdOutcome) (s : State) :
    (s.proc = true ∧ requestPoll desired enabling s = s.addTask (.pollWait desired enabling)) ∨
    (s.proc = false ∧ requestPoll desired enabling s = returnEnabling enabling (applyPoll desired s)) := by
  unfold requestPoll
  cases hp : s.proc <;> simp

/-- Going on with a procedure: nothing while it has none or while what it waits for is not there (rules R324 to R328). -/
theorem hostRun_waits (k : Nat) (s : State)
    (h : s.host.tasks[k]? = none ∨
      (∃ desired enabling, s.host.tasks[k]? = some (.pollWait desired enabling) ∧ s.proc = true) ∨
      (s.host.tasks[k]? = some .disableWait ∧ s.proc = true) ∨
      (∃ name c mark, s.host.tasks[k]? = some (.awaiting name c mark) ∧ finalRecord (s.out.drop mark) = none)) :
    hostRun k s = s := by
  unfold hostRun
  rcases h with h | ⟨d, t, h, hp⟩ | ⟨h, hp⟩ | ⟨name, c, mark, h, hf⟩ <;> rw [h]
  · simp [resumeTask, hp]
  · simp [resumeTask, hp]
  · simp [resumeTask, hf]

/-- A procedure of INIT_ENCRYPTION ends at the first step that is unsuccessful (rule R324). -/
theorem finishTask_initStep_failed (name : CommandName) (n : Nat) (kp : KeyPair) (o : CmdOutcome) (s : State)
    (h : succeeded o = false) :
    finishTask name (.initStep n kp) o s = s.addResult (.keyExchangeFailure n (some o)) := by
  simp [finishTask, h]

end Sys2Proof.Machine
end

