-- ==== Sys2Proof/Laws/Memory.lean ====
section
/-! SUPPORT. The byte buffers keep their capacities (spec/10_state.md rules R22, R28 and R33): `Memory.wf` holds after reset, and
every operation of Machine/Ops.lean keeps it; of the three that write a buffer, under the bound of what they write. -/

namespace Sys2Proof.Machine

theorem memory_wf_reset : Memory.wf State.reset := by decide

/-! ### The operations that write a buffer -/

theorem memory_wf_setRx (s : State) (r : RxState) (buf : Bytes) (h : Memory.wf s) (hb : buf.length ≤ 260) :
    Memory.wf (s.setRx r buf) :=
  ⟨hb, h.2⟩

theorem memory_wf_newCommand (s : State) (packet : Bytes) (sb : Byte) (h : Memory.wf s) (hp : packet.length ≤ 519) :
    Memory.wf (s.newCommand packet sb) :=
  ⟨h.1, hp, h.2.2⟩

theorem memory_wf_loadKey (s : State) (key : Bytes) (h : Memory.wf s) (hk : key.length = 16) :
    Memory.wf (s.loadKey key) :=
  ⟨h.1, h.2.1, hk⟩

/-! ### The operations that write none -/

theorem memory_wf_emit (s : State) (o : Output) : Memory.wf (s.emit o) ↔ Memory.wf s := Iff.rfl
theorem memory_wf_respond (s : State) (r : Res) : Memory.wf (s.respond r) ↔ Memory.wf s := Iff.rfl
theorem memory_wf_transmit (s : State) : Memory.wf s.transmit ↔ Memory.wf s := Iff.rfl
theorem memory_wf_setSeq (s : State) (b : Bool) : Memory.wf (s.setSeq b) ↔ Memory.wf s := Iff.rfl
theorem memory_wf_countUp (s : State) : Memory.wf s.countUp ↔ Memory.wf s := Iff.rfl
theorem memory_wf_dropKey (s : State) : Memory.wf s.dropKey ↔ Memory.wf s := Iff.rfl
theorem memory_wf_arm (s : State) : Memory.wf s.arm ↔ Memory.wf s := Iff.rfl
theorem memory_wf_disarm (s : State) : Memory.wf s.disarm ↔ Memory.wf s := Iff.rfl
theorem memory_wf_setSess (s : State) (x : SessState) : Memory.wf (s.setSess x) ↔ Memory.wf s := Iff.rfl
theorem memory_wf_setCause (s : State) (c : Status) : Memory.wf (s.setCause c) ↔ Memory.wf s := Iff.rfl
theorem memory_wf_nextAttempt (s : State) : Memory.wf s.nextAttempt ↔ Memory.wf s := Iff.rfl
theorem memory_wf_setHost (s : State) (h : HostSide) : Memory.wf (s.setHost h) ↔ Memory.wf s := Iff.rfl
theorem memory_wf_setInbox (s : State) (l : List Input) : Memory.wf (s.setInbox l) ↔ Memory.wf s := Iff.rfl
theorem memory_wf_setDraws (s : State) (q : List Nat) (n : Nat) : Memory.wf (s.setDraws q n) ↔ Memory.wf s := Iff.rfl

theorem memory_wf_failAttempt (c : Status) (s : State) : Memory.wf (failAttempt c s) ↔ Memory.wf s := by
  by_cases h : s.attempt < s.cfg.commandRetries.val
  · rw [failAttempt_retry c s h]
  · rw [failAttempt_final c s (by omega)]

theorem memory_wf_completeCommand (p : Bytes) (s : State) : Memory.wf (completeCommand p s) ↔ Memory.wf s := Iff.rfl

theorem memory_wf_frameIn (f : Bytes) (s : State) : Memory.wf (frameIn f s) ↔ Memory.wf s := by
  rcases frameIn_cases f s with ⟨_, h⟩ | ⟨c, _, _, h⟩ | ⟨p, _, _, _, _, h⟩ <;> rw [h]
  · exact memory_wf_failAttempt c s
  · split
    · rw [memory_wf_completeCommand, memory_wf_countUp]
    · exact memory_wf_completeCommand p s

/-! ### The bounds of what is written -/

/-- Stuffing at most doubles a string (rule R146 (a)), so a packet with DATA of at most 255 bytes fits TXBUF (rule R33). -/
theorem stuff_length_le (s : Bytes) : (stuff s).length ≤ 2 * s.length := by
  induction s with
  | nil => rfl
  | cons b bs ih =>
    unfold stuff
    split <;> simp only [List.length_cons] <;> omega

theorem packetBody_length (sb : Byte) (data : Bytes) : (packetBody sb data).length = data.length + 4 := by
  simp [packetBody, crc16, le16]

theorem wirePacket_length_le (sb : Byte) (data : Bytes) (h : data.length ≤ 255) : (wirePacket sb data).length ≤ 519 := by
  have h1 := stuff_length_le (packetBody sb data)
  have h2 := packetBody_length sb data
  simp only [wirePacket, List.length_cons]
  omega

end Sys2Proof.Machine
end

