-- ==== Sys2Proof/Laws/PerInstr.lean ====
section
/-! SUPPORT. What holds of every operation as syntax, one lemma per constructor: a record begins with its operation code, and
the code is one of the 20 of rule R120 (spec/30_encoding.md). -/

namespace Sys2Proof.Laws.EncodeHead

/-- The 20 codes of rule R120. -/
def codes : Bytes :=
  [0x01, 0x02, 0x04, 0x05, 0x08, 0x09, 0x10, 0x11, 0x12, 0x20, 0x21, 0x22, 0x23, 0x30, 0x40, 0x41, 0x50, 0x51, 0x52,
   0x53]

/-- The record of `i` begins with its code, which rule R120 lists, and its operands follow. -/
def Statement (i : Instr) : Prop :=
  opcode i ∈ codes ∧ encode i = opcode i :: encodeOperands i

theorem crc16 (data : Bytes) : Statement (.crc16 data) :=
  ⟨by simp [opcode, codes], rfl⟩

theorem stuff (data : Bytes) : Statement (.stuff data) :=
  ⟨by simp [opcode, codes], rfl⟩

theorem aesEnc (key data : Bytes) : Statement (.aesEnc key data) :=
  ⟨by simp [opcode, codes], rfl⟩

theorem aesDec (key data : Bytes) : Statement (.aesDec key data) :=
  ⟨by simp [opcode, codes], rfl⟩

theorem build (flags : CmdFlags) (code seqByte : Byte) (key : Option Bytes) (eCount : Count) (args : Bytes) :
    Statement (.build flags code seqByte key eCount args) :=
  ⟨by simp [opcode, codes], rfl⟩

theorem extract (frame : Bytes) (key : Option Bytes) (eCount : Count) : Statement (.extract frame key eCount) :=
  ⟨by simp [opcode, codes], rfl⟩

theorem exec (flags : CmdFlags) (code : Byte) (args : Bytes) : Statement (.exec flags code args) :=
  ⟨by simp [opcode, codes], rfl⟩

theorem keyInstall (key : Bytes) : Statement (.keyInstall key) :=
  ⟨by simp [opcode, codes], rfl⟩

theorem keyClear : Statement .keyClear :=
  ⟨by simp [opcode, codes], rfl⟩

theorem rxByte (b : Byte) : Statement (.rxByte b) :=
  ⟨by simp [opcode, codes], rfl⟩

theorem rxFlush : Statement .rxFlush :=
  ⟨by simp [opcode, codes], rfl⟩

theorem rxChunk (data : Bytes) : Statement (.rxChunk data) :=
  ⟨by simp [opcode, codes], rfl⟩

theorem frameIn (frame : Bytes) : Statement (.frameIn frame) :=
  ⟨by simp [opcode, codes], rfl⟩

theorem timeout : Statement .timeout :=
  ⟨by simp [opcode, codes], rfl⟩

theorem genKeypair : Statement .genKeypair :=
  ⟨by simp [opcode, codes], rfl⟩

theorem deriveKey (bytes : Bytes) (fixedKey : BitVec 64) (hostRandom modulus : Nat) :
    Statement (.deriveKey bytes fixedKey hostRandom modulus) :=
  ⟨by simp [opcode, codes], rfl⟩

theorem initEncryption : Statement .initEncryption :=
  ⟨by simp [opcode, codes], rfl⟩

theorem enable : Statement .enable :=
  ⟨by simp [opcode, codes], rfl⟩

theorem disable : Statement .disable :=
  ⟨by simp [opcode, codes], rfl⟩

theorem poll (desired : Bool) : Statement (.poll desired) :=
  ⟨by simp [opcode, codes], rfl⟩

end Sys2Proof.Laws.EncodeHead
end

