-- ==== Sys2Proof/Laws/Step.lean ====
section
/-! SUPPORT. What one step can do, said once: an operation at the ports, or a procedure of the host, which starts at most one
command and otherwise moves by small quiet moves only.  A property of every step is proved from these lemmas and from the
lemmas about the quiet moves, EXEC's effect and the decoder's. -/

namespace Sys2Proof.Machine

/-! ### The host's procedures -/

/-- A relation that holds of no move at all, of moves in a row, and of each small move a host procedure makes beside the
start of a command. -/
structure Quiet (Q : State → State → Prop) : Prop where
  refl : ∀ s, Q s s
  trans : ∀ {s t u}, Q s t → Q t u → Q s u
  setHost : ∀ s h, Q s (s.setHost h)
  setDraws : ∀ s q n, Q s (s.setDraws q n)
  install : ∀ key s, key.length = 16 → Q s (installKey key s)
  clear : ∀ s, Q s (clearKey s)

/-- Quiet moves with at most one command started between them; it is SYNC only where `sync` is set. -/
def HostMove (Q : State → State → Prop) (sync : Bool) (s t : State) : Prop :=
  Q s t ∨ ∃ u flags code args, flags.isSync = sync ∧ Q s u ∧ Q (startCommand flags code args u).1 t

theorem commandDescriptor_isSync (cfg : Config) (name : CommandName) :
    (commandDescriptor cfg name).1.isSync = (name == .sync) := by
  unfold commandDescriptor
  split <;> rfl

theorem composeKey_length (fixedKey : BitVec 64) (key : Nat) : (composeKey fixedKey key).length = 16 := rfl

theorem initCommand_ne_sync (n : Nat) : (initCommand n == CommandName.sync) = false := by
  unfold initCommand
  split
  · rfl
  · split <;> rfl

section
variable {Q : State → State → Prop} (hq : Quiet Q)
include hq

theorem HostMove.quiet_left {y : Bool} {s t u : State} (h1 : Q s t) (h2 : HostMove Q y t u) : HostMove Q y s u := by
  rcases h2 with h | ⟨v, f, c, a, hy, h, h'⟩
  · exact .inl (hq.trans h1 h)
  · exact .inr ⟨v, f, c, a, hy, hq.trans h1 h, h'⟩

theorem HostMove.quiet_right {y : Bool} {s t u : State} (h1 : HostMove Q y s t) (h2 : Q t u) : HostMove Q y s u := by
  rcases h1 with h | ⟨v, f, c, a, hy, h, h'⟩
  · exact .inl (hq.trans h h2)
  · exact .inr ⟨v, f, c, a, hy, h, hq.trans h' h2⟩

theorem hostMove_issueExec (name : CommandName) (args : List Nat) (s : State) :
    HostMove Q (name == .sync) s (issueExec name args s).1 := by
  rcases issueExec_cases name args s with ⟨_, h⟩ | ⟨bytes, _, _, ⟨e, _, _, _, h⟩ | ⟨_, _, h⟩⟩ <;> rw [h]
  · exact .inl (hq.refl s)
  · exact .inr ⟨s, _, _, _, commandDescriptor_isSync s.cfg name, hq.refl s, hq.refl _⟩
  · exact .inr ⟨s, _, _, _, commandDescriptor_isSync s.cfg name, hq.refl s, hq.refl _⟩

theorem quiet_applyPoll (desired : Bool) (s : State) : Q s (applyPoll desired s) := by
  rw [applyPoll_eq]
  exact hq.setHost _ _

theorem quiet_returnEnabling (enabling : Option CmdOutcome) (s : State) : Q s (returnEnabling enabling s) := by
  unfold returnEnabling
  split
  · exact hq.refl s
  · exact hq.setHost _ _

theorem quiet_requestPoll (desired : Bool) (enabling : Option CmdOutcome) (s : State) :
    Q s (requestPoll desired enabling s) := by
  rcases requestPoll_cases desired enabling s with ⟨_, h⟩ | ⟨_, h⟩ <;> rw [h]
  · exact hq.setHost _ _
  · exact hq.trans (quiet_applyPoll hq desired s) (quiet_returnEnabling hq enabling _)

theorem quiet_finishPollCycle (o : CmdOutcome) (s : State) : Q s (finishPollCycle o s) := by
  unfold finishPollCycle
  split
  · simp only
    split
    · exact hq.trans (hq.setHost _ _) (hq.setHost _ _)
    · exact hq.setHost _ _
  · exact hq.trans (hq.setHost _ _) (hq.setHost _ _)

/-- What a procedure does with an outcome starts no command. -/
theorem quiet_finishTask (name : CommandName) (k : Continuation) (o : CmdOutcome) (s : State) :
    Q s (finishTask name k o s) := by
  unfold finishTask
  split
  · exact hq.setHost _ _
  · split
    · split
      · exact hq.setHost _ _
      · exact hq.setHost _ _
    · exact hq.setHost _ _
  · split
    · exact hq.trans (hq.setHost _ _) (quiet_requestPoll hq true _ _)
    · exact hq.setHost _ _
  · split
    · exact hq.trans (hq.setHost _ _) (hq.setHost _ _)
    · exact hq.setHost _ _
  · exact quiet_finishPollCycle hq o s

theorem hostMove_issueCommand (name : CommandName) (args : List Nat) (k : Continuation) (s : State) :
    HostMove Q (name == .sync) s (issueCommand name args k s) := by
  rcases issueCommand_cases name args k s with ⟨_, h⟩ | ⟨o, _, _, h⟩ <;> rw [h]
  · exact (hostMove_issueExec hq _ _ s).quiet_right hq (hq.setHost _ _)
  · exact (hostMove_issueExec hq _ _ s).quiet_right hq (quiet_finishTask hq _ _ _ _)

theorem hostMove_issueInitStep (n : Nat) (kp : KeyPair) (s : State) : HostMove Q false s (issueInitStep n kp s) := by
  have h := hostMove_issueCommand hq (initCommand n) [initArgument n kp] (.initStep n kp) s
  rwa [initCommand_ne_sync] at h

theorem hostMove_disableStopped (s : State) : HostMove Q false s (disableStopped s) :=
  HostMove.quiet_left hq (quiet_applyPoll hq false s) (hostMove_issueCommand hq _ _ _ _)

theorem hostMove_pollTimer (s : State) : HostMove Q false s (pollTimer s) := by
  unfold pollTimer
  split
  · simp only
    split
    · exact HostMove.quiet_left hq (hq.setHost _ _) (hostMove_issueCommand hq _ _ _ _)
    · exact .inl (hq.setHost _ _)
  · exact .inl (hq.refl s)

theorem quiet_keyExchangeEffect (d : Decoded) (s : State) : Q s (keyExchangeEffect d s).2 := by
  unfold keyExchangeEffect
  split
  · split
    · next k hk =>
      refine hq.trans (hq.setHost s _) (hq.install _ _ ?_)
      unfold deriveSessionKey at hk
      split at hk
      · cases hk
      · cases hk
        exact composeKey_length _ _
    · exact hq.refl s
  · exact hq.refl s

theorem quiet_responseEffect (name : CommandName) (d : Decoded) (s : State) : Q s (responseEffect name d s).2 := by
  unfold responseEffect
  split
  · split
    · exact quiet_keyExchangeEffect hq d s
    · exact hq.refl s
  · simp only
    split
    · exact hq.setHost _ _
    · exact hq.refl s
  · simp only
    split
    · exact hq.setHost _ _
    · exact hq.refl s
  · simp only
    split
    · exact hq.refl s
    · exact hq.setHost _ _
  · exact hq.refl s

theorem quiet_finishPayload (name : CommandName) (k : Continuation) (payload : Bytes) (s : State) :
    Q s (finishPayload name k payload s) := by
  unfold finishPayload
  simp only
  refine hq.trans
    (quiet_responseEffect hq name (decodeResponse s.cfg payload name s.host.protocolVersion s.host.unitType) s) ?_
  split
  · exact quiet_finishTask hq _ _ _ _
  · exact quiet_finishTask hq _ _ _ _

theorem hostMove_hostRun (k : Nat) (s : State) : HostMove Q false s (hostRun k s) := by
  unfold hostRun
  split
  · exact .inl (hq.refl s)
  · unfold resumeTask
    split
    · split
      · exact .inl (hq.refl s)
      · exact .inl (hq.trans (hq.setHost _ _) (hq.trans (quiet_applyPoll hq _ _) (quiet_returnEnabling hq _ _)))
    · split
      · exact .inl (hq.refl s)
      · exact HostMove.quiet_left hq (hq.setHost _ _) (hostMove_disableStopped hq _)
    · exact HostMove.quiet_left hq (hq.setHost _ _) (hostMove_issueInitStep hq _ _ _)
    · split
      · exact .inl (hq.refl s)
      · exact .inl (hq.trans (hq.setHost _ _) (quiet_finishPayload hq _ _ _ _))
      · exact .inl (hq.trans (hq.setHost _ _) (quiet_finishTask hq _ _ _ _))

theorem quiet_draw (s : State) : Q s s.draw.2 := by
  obtain ⟨q, n, h⟩ := s.draw_state
  rw [h]
  exact hq.setDraws s q n

theorem quiet_generateKeys (s : State) : Q s (generateKeys s).2 := by
  unfold generateKeys
  simp only
  split
  · exact hq.trans (quiet_draw hq s) (quiet_draw hq _)
  · exact hq.trans (quiet_draw hq s) (hq.trans (quiet_draw hq _) (hq.trans (quiet_draw hq _) (hq.setHost _ _)))

theorem quiet_startInitEncryption (s : State) : Q s (startInitEncryption s) := by
  unfold startInitEncryption
  simp only
  refine hq.trans (quiet_generateKeys hq s) ?_
  split
  · exact hq.trans (hq.clear _) (hq.setHost _ _)
  · exact hq.setHost _ _

end

/-! ### Operations and steps -/

/-- The operations of the host's side are host moves. -/
theorem exec_host_move {Q : State → State → Prop} (hq : Quiet Q) {i : Instr} (hi : portOf i = .host) (s : State) :
    ∃ t, exec i s = .next t ∧ HostMove Q false s t := by
  cases i with
  | genKeypair => exact ⟨_, rfl, .inl (hq.trans (quiet_generateKeys hq s) (hq.setHost _ _))⟩
  | deriveKey bytes fixedKey r m =>
    refine ⟨_, rfl, .inl ?_⟩
    split
    · exact hq.trans (hq.setHost _ _) (hq.setHost _ _)
    · exact hq.setHost _ _
  | initEncryption => exact ⟨_, rfl, .inl (quiet_startInitEncryption hq s)⟩
  | enable => exact ⟨_, rfl, hostMove_issueCommand hq _ _ _ s⟩
  | disable =>
    refine ⟨_, rfl, ?_⟩
    split
    · exact .inl (hq.setHost _ _)
    · exact hostMove_disableStopped hq s
  | poll desired => exact ⟨_, rfl, .inl (quiet_requestPoll hq desired none s)⟩
  | _ => cases hi

/-- A pure operation answers on RES with its result or an error, and BUILD uses up draws (rules R25 and R269). -/
theorem exec_pure {i : Instr} (s : State)
    (hi : opcode i ∈ ([0x01, 0x02, 0x04, 0x05, 0x08, 0x09] : Bytes)) :
    ∃ q n r, exec i s = .next ((s.setDraws q n).answer r) ∧
      ∀ e, r = .error e → e ≠ .framingError := by
  have aes : ∀ key data e, aesEncrypt key data = .error e ∨ aesDecrypt key data = .error e → e ≠ .framingError := by
    intro key data e h
    unfold aesEncrypt aesDecrypt at h
    rcases h with h | h <;> (split at h <;> cases h) <;> decide
  have ill : illegalOp s = (s.setDraws s.draws s.drawCount).answer (.error .illegalOp) := rfl
  cases i with
  | crc16 data => exact ⟨s.draws, s.drawCount, .ok _, rfl, fun _ h => by cases h⟩
  | stuff data => exact ⟨s.draws, s.drawCount, .ok _, rfl, fun _ h => by cases h⟩
  | aesEnc key data => exact ⟨s.draws, s.drawCount, _, rfl, fun e h => aes key data e (.inl h)⟩
  | aesDec key data => exact ⟨s.draws, s.drawCount, _, rfl, fun e h => aes key data e (.inr h)⟩
  | build flags code sb key e args =>
    show ∃ q n r, execBuild flags code sb key e args s = _ ∧ _
    unfold execBuild
    split
    · rcases buildWithDraw_cases flags.reqArgs code args sb key e s with ⟨err, h, hb⟩ | ⟨p, pad, q, n, _, _, hb⟩
      · refine ⟨s.draws, s.drawCount, .error err, by simp only [hb]; rfl, fun e' he => ?_⟩
        cases he
        rcases buildPadLen_error h with h | h <;> simp [h]
      · refine ⟨q, n, buildPacket flags.reqArgs code args sb key e pad, by simp only [hb], fun e' he => ?_⟩
        rcases buildPacket_error he with h | h | h <;> simp [h]
    · exact ⟨_, _, _, congrArg _ ill, fun e h => by cases h; decide⟩
  | extract frame key e =>
    show ∃ q n r, execExtract frame key e s = _ ∧ _
    unfold execExtract
    split
    · refine ⟨s.draws, s.drawCount, _, rfl, fun e' he => ?_⟩
      rcases extractPacket_error he with h | h | h | h <;> simp [h]
    · exact ⟨_, _, _, congrArg _ ill, fun e h => by cases h; decide⟩
  | _ => simp [opcode] at hi

/-- Everything one operation can do: a pure operation's answer, or the effect of the operation's unit (rule R120). -/
theorem exec_cases {Q : State → State → Prop} (hq : Quiet Q) {i : Instr} {s t : State} (he : exec i s = .next t) :
    (opcode i ∈ ([0x01, 0x02, 0x04, 0x05, 0x08, 0x09] : Bytes) ∧
      ∃ q n r, t = (s.setDraws q n).answer r ∧ ∀ e, r = .error e → e ≠ .framingError) ∨
    (∃ flags code args, i = .exec flags code args ∧ t = (startCommand flags code args s).1) ∨
    (∃ key, i = .keyInstall key ∧
      ((key.length = 16 ∧ t = installKey key s) ∨ (key.length ≠ 16 ∧ t = illegalOp s))) ∨
    (i = .keyClear ∧ t = clearKey s) ∨
    (∃ b, i = .rxByte b ∧ t = rxByte b s) ∨
    (∃ data, i = .rxChunk data ∧ t = rxChunk data s) ∨
    (i = .rxFlush ∧ t = rxFlush s) ∨
    (∃ f, i = .frameIn f ∧ t = frameIn f s) ∨
    (i = .timeout ∧ ((s.tmr = true ∧ t = failAttempt .timeout s) ∨ (s.tmr = false ∧ t = s))) ∨
    (portOf i = .host ∧ HostMove Q false s t) := by
  by_cases hp : opcode i ∈ ([0x01, 0x02, 0x04, 0x05, 0x08, 0x09] : Bytes)
  · obtain ⟨q, n, r, h, h'⟩ := exec_pure s hp
    rw [h] at he
    cases he
    exact .inl ⟨hp, q, n, r, rfl, h'⟩
  by_cases hh : portOf i = .host
  · obtain ⟨u, hu, hm⟩ := exec_host_move hq hh s
    rw [hu] at he
    cases he
    exact .inr (.inr (.inr (.inr (.inr (.inr (.inr (.inr (.inr ⟨hh, hm⟩))))))))
  refine .inr ?_
  cases i with
  | exec flags code args => cases he; exact .inl ⟨_, _, _, rfl, rfl⟩
  | keyInstall key =>
    cases he
    refine .inr (.inl ⟨key, rfl, ?_⟩)
    by_cases hk : key.length = 16
    · exact .inl ⟨hk, by simp [wfKey, hk]⟩
    · exact .inr ⟨hk, by simp [wfKey, hk]⟩
  | keyClear => cases he; exact .inr (.inr (.inl ⟨rfl, rfl⟩))
  | rxByte b => cases he; exact .inr (.inr (.inr (.inl ⟨_, rfl, rfl⟩)))
  | rxChunk data => cases he; exact .inr (.inr (.inr (.inr (.inl ⟨_, rfl, rfl⟩))))
  | rxFlush => cases he; exact .inr (.inr (.inr (.inr (.inr (.inl ⟨rfl, rfl⟩)))))
  | frameIn f => cases he; exact .inr (.inr (.inr (.inr (.inr (.inr (.inl ⟨_, rfl, rfl⟩))))))
  | timeout =>
    cases he
    refine .inr (.inr (.inr (.inr (.inr (.inr (.inr (.inl ⟨rfl, ?_⟩)))))))
    cases ht : s.tmr with
    | true => exact .inl ⟨rfl, rfl⟩
    | false => exact .inr ⟨rfl, rfl⟩
  | _ => first | exact absurd rfl hh | simp [opcode] at hp

/-- What the next input is, where the step goes on (rules R18, R80 and R123). -/
theorem step_cases {s t : State} (h : step s = .next t) :
    (s.inbox = [] ∧ t = s) ∨
    (∃ p bytes rest i, s.inbox = .record p bytes :: rest ∧ decodeRecord bytes = .ok i ∧ portOf i = p ∧
      exec i (s.setInbox rest) = .next t) ∨
    (∃ bytes rest, s.inbox = .record .cmd bytes :: rest ∧ t = illegalOp (s.setInbox rest)) ∨
    (∃ name args rest, s.inbox = .hostExec name args :: rest ∧ t = issueCommand name args .report (s.setInbox rest)) ∨
    (∃ k rest, s.inbox = .hostRun k :: rest ∧ t = hostRun k (s.setInbox rest)) ∨
    (∃ rest, s.inbox = .pollTimer :: rest ∧ t = pollTimer (s.setInbox rest)) ∨
    (∃ e rest, s.inbox = .freeEvent e :: rest ∧ t = (s.setInbox rest).notify [.free e]) := by
  unfold step at h
  unfold fetch at h
  cases hi : s.inbox with
  | nil => simp only [hi] at h; cases h; exact .inl ⟨rfl, rfl⟩
  | cons x rest =>
    refine .inr ?_
    cases x with
    | record p bytes =>
      simp only [hi, fetchRecord] at h
      cases hd : decodeRecord bytes with
      | ok i =>
        simp only [hd] at h
        by_cases hp : portOf i = p
        · exact .inl ⟨p, bytes, rest, i, rfl, hd, hp, by simpa [hp] using h⟩
        · by_cases hc : p = .cmd
          · subst hc
            simp only [hp, if_true, if_false] at h
            cases h
            exact .inr (.inl ⟨bytes, rest, rfl, rfl⟩)
          · simp only [hp, hc, if_false] at h; cases h
      | error e =>
        simp only [hd] at h
        by_cases hc : p = .cmd
        · subst hc
          simp only [if_true] at h
          cases h
          exact .inr (.inl ⟨bytes, rest, rfl, rfl⟩)
        · simp only [hc, if_false] at h; cases h
    | hostExec name args => simp only [hi] at h; cases h; exact .inr (.inr (.inl ⟨name, args, rest, rfl, rfl⟩))
    | hostRun k => simp only [hi] at h; cases h; exact .inr (.inr (.inr (.inl ⟨k, rest, rfl, rfl⟩)))
    | pollTimer => simp only [hi] at h; cases h; exact .inr (.inr (.inr (.inr (.inl ⟨rest, rfl, rfl⟩))))
    | freeEvent e => simp only [hi] at h; cases h; exact .inr (.inr (.inr (.inr (.inr ⟨e, rest, rfl, rfl⟩))))

end Sys2Proof.Machine
end

