-- ==== Sys2Proof/Tests/Slice0.lean ====
section
/-! SUPPORT. The model's own tests.  Expected results come from spec/95_test_vectors.md (the vectors V<n> and the programs P<n>)
and from the tables of the rules; each theorem's comment names its source.  The witnesses at the end show, for every statement
of Certificates/Slice0/Obligations.lean that has hypotheses, a concrete state and operands that meet them. -/

namespace Sys2Proof.Tests

open Sys2Proof Sys2Proof.Machine

-- The tests of the ciphers are long for the kernel; one after another they take little memory.
set_option Elab.async false

/-! ### Helpers -/

/-- The state an outcome goes on with; `fallback` where it stops. -/
def stateOf (fallback : State) (o : Host.Outcome State Fault Refusal) : State :=
  match o with
  | .next t => t
  | .fault _ => fallback
  | .refused _ => fallback

/-- The outcome is a next state. -/
def goesOn (o : Host.Outcome State Fault Refusal) : Bool :=
  match o with
  | .next _ => true
  | .fault _ => false
  | .refused _ => false

/-- What an operation puts on the ports from a state with nothing emitted yet. -/
def outputs (i : Instr) (s : State) : List Output :=
  (stateOf { s with out := [.res (.error .framingError)] } (exec i s)).out

/-- The state after an operation. -/
def after (i : Instr) (s : State) : State :=
  stateOf s (exec i s)

/-- SYNC's packet (V70). -/
def syncPacket : Bytes := [0x7F, 0x80, 0x01, 0x11, 0x65, 0x82]

/-- The state after V110: a SYNC in flight. -/
def syncSent : State :=
  { State.reset with
    txBuf := syncPacket, oSeq := 0x80, attempt := 1, proc := true, tmr := true, sess := .awaiting }

/-- The key K of V64. -/
def keyK : Bytes := [0x67, 0x45, 0x23, 0x01, 0x67, 0x45, 0x23, 0x01, 0xF3, 0x07, 0, 0, 0, 0, 0, 0]

/-- The key of example (1) of rule R203. -/
def keyOne : Bytes := [0, 1, 2, 3, 4, 5, 6, 7, 8, 9, 10, 11, 12, 13, 14, 15]

/-- A device's encrypted response with counter 1, payload F0 (V96). -/
def frame96 : Bytes :=
  [0x7F, 0x80, 0x11, 0x7E, 0xCA, 0x1D, 0xCD, 0xCE, 0xB5, 0x14, 0x11, 0xCF, 0x7C, 0x9C, 0xCB, 0x31, 0xD2, 0x7A, 0x07,
   0xD9, 0xD4, 0x88]

/-- One byte more than a 16-bit length counts. -/
def longString : Bytes := List.replicate 65536 0

/-! ### WellFormed refuses what no record carries (rule R121) -/

theorem test_long_string : wfString longString = false := by
  simp only [wfString, longString, List.length_replicate]
  decide

theorem test_wf_string : WellFormed (.crc16 longString) = false := by
  simp [WellFormed, test_long_string]
theorem test_wf_stuff : WellFormed (.stuff longString) = false := by
  simp [WellFormed, test_long_string]
theorem test_wf_enc_key : WellFormed (.aesEnc [1, 2] []) = false := by decide
theorem test_wf_dec_key : WellFormed (.aesDec [] []) = false := by decide
theorem test_wf_dec_data : WellFormed (.aesDec keyOne longString) = false := by
  simp [WellFormed, test_long_string]
theorem test_wf_build_key : WellFormed (.build ⟨true, false, false, false⟩ 0x07 0x80 (some [1]) 0 []) = false := by decide
theorem test_wf_build_args :
    WellFormed (.build ⟨true, false, false, false⟩ 0x07 0x80 none 0 longString) = false := by
  simp [WellFormed, test_long_string]
theorem test_wf_extract_frame : WellFormed (.extract longString none 0) = false := by
  simp [WellFormed, test_long_string]
theorem test_wf_extract_key : WellFormed (.extract [] (some []) 0) = false := by decide
theorem test_wf_exec : WellFormed (.exec ⟨true, false, false, true⟩ 0x11 longString) = false := by
  simp [WellFormed, test_long_string]
theorem test_wf_install : WellFormed (.keyInstall (0 :: keyOne)) = false := by decide
theorem test_wf_chunk : WellFormed (.rxChunk longString) = false := by
  simp [WellFormed, test_long_string]
theorem test_wf_frame : WellFormed (.frameIn longString) = false := by
  simp [WellFormed, test_long_string]
theorem test_wf_derive_bytes : WellFormed (.deriveKey longString 0 1 2) = false := by
  simp [WellFormed, test_long_string]
theorem test_wf_derive_random : WellFormed (.deriveKey [] 0 (2 ^ 64) 2) = false := by decide
theorem test_wf_derive_modulus : WellFormed (.deriveKey [] 0 1 (2 ^ 64)) = false := by decide

/-! ### Records written out from the layout of rule R121 -/

theorem test_decode_crc16 : decodeRecord [0x01, 0x03, 0x00, 0x41, 0x42, 0x43] = .ok (.crc16 [0x41, 0x42, 0x43]) := by
  decide
theorem test_decode_stuff : decodeRecord [0x02, 0x01, 0x00, 0x7F] = .ok (.stuff [0x7F]) := by decide
theorem test_decode_aesEnc :
    decodeRecord [0x04, 0, 1, 2, 3, 4, 5, 6, 7, 8, 9, 10, 11, 12, 13, 14, 15, 0x02, 0x00, 0xAA, 0xBB] =
      .ok (.aesEnc keyOne [0xAA, 0xBB]) := by decide
theorem test_decode_aesDec :
    decodeRecord [0x05, 0, 1, 2, 3, 4, 5, 6, 7, 8, 9, 10, 11, 12, 13, 14, 15, 0x00, 0x00] =
      .ok (.aesDec keyOne []) := by decide
/-- `eCount` is 0x04030201: the least significant byte comes first. -/
theorem test_decode_build :
    decodeRecord [0x08, 0x02, 0x06, 0x80, 0x00, 0x01, 0x02, 0x03, 0x04, 0x01, 0x00, 0x7F] =
      .ok (.build ⟨false, true, false, false⟩ 0x06 0x80 none 0x04030201 [0x7F]) := by decide
theorem test_decode_build_key :
    decodeRecord [0x08, 0x0C, 0x07, 0x00, 0x01, 0, 1, 2, 3, 4, 5, 6, 7, 8, 9, 10, 11, 12, 13, 14, 15, 0x05, 0x00, 0x00,
        0x00, 0x00, 0x00] =
      .ok (.build ⟨false, false, true, true⟩ 0x07 0x00 (some keyOne) 5 []) := by decide
theorem test_decode_extract :
    decodeRecord [0x09, 0x05, 0x00, 0x7F, 0x80, 0x00, 0x04, 0x00, 0x00, 0x00, 0x00, 0x00, 0x80] =
      .ok (.extract [0x7F, 0x80, 0x00, 0x04, 0x00] none 0x80000000) := by decide
theorem test_decode_extract_key :
    decodeRecord [0x09, 0x00, 0x00, 0x01, 0, 1, 2, 3, 4, 5, 6, 7, 8, 9, 10, 11, 12, 13, 14, 15, 0x02, 0x00, 0x00, 0x00] =
      .ok (.extract [] (some keyOne) 2) := by decide
/-- P1 step 1. -/
theorem test_decode_exec : decodeRecord [0x10, 0x09, 0x11, 0x00, 0x00] = .ok (.exec ⟨true, false, false, true⟩ 0x11 []) := by
  decide
/-- P4 step 2. -/
theorem test_decode_keyInstall :
    decodeRecord [0x11, 0x67, 0x45, 0x23, 0x01, 0x67, 0x45, 0x23, 0x01, 0xF3, 0x07, 0, 0, 0, 0, 0, 0] =
      .ok (.keyInstall keyK) := by decide
/-- P4 step 10. -/
theorem test_decode_keyClear : decodeRecord [0x12] = .ok .keyClear := by decide
/-- P3 step 2. -/
theorem test_decode_rxByte : decodeRecord [0x20, 0x55] = .ok (.rxByte 0x55) := by decide
theorem test_decode_rxFlush : decodeRecord [0x21] = .ok .rxFlush := by decide
/-- P3 step 3. -/
theorem test_decode_rxChunk : decodeRecord [0x22, 0x02, 0x00, 0x7F, 0x7F] = .ok (.rxChunk [0x7F, 0x7F]) := by decide
theorem test_decode_frameIn : decodeRecord [0x23, 0x02, 0x00, 0x7F, 0x80] = .ok (.frameIn [0x7F, 0x80]) := by decide
/-- P2 step 5. -/
theorem test_decode_timeout : decodeRecord [0x30] = .ok .timeout := by decide
theorem test_decode_genKeypair : decodeRecord [0x40] = .ok .genKeypair := by decide
/-- The model's own layout of the operands (log entry 6), the numbers of V133. -/
theorem test_decode_deriveKey :
    decodeRecord [0x41, 0x08, 0x00, 0xE5, 0x56, 0, 0, 0, 0, 0, 0, 0x67, 0x45, 0x23, 0x01, 0x67, 0x45, 0x23, 0x01,
        0x78, 0x56, 0x34, 0x12, 0, 0, 0, 0, 0x03, 0x80, 0, 0, 0, 0, 0, 0] =
      .ok (.deriveKey [0xE5, 0x56, 0, 0, 0, 0, 0, 0] 0x0123456701234567 0x12345678 32771) := by decide
theorem test_decode_initEncryption : decodeRecord [0x50] = .ok .initEncryption := by decide
theorem test_decode_enable : decodeRecord [0x51] = .ok .enable := by decide
theorem test_decode_disable : decodeRecord [0x52] = .ok .disable := by decide
theorem test_decode_poll : decodeRecord [0x53, 0x01] = .ok (.poll true) := by decide

theorem test_decode_refuses :
    decodeRecord [] = .error .empty ∧ decodeRecord [0x03] = .error (.unknownCode 0x03) ∧
    decodeRecord [0x01, 0x02, 0x00, 0x41] = .error .truncated ∧ decodeRecord [0x12, 0x00] = .error .trailing ∧
    decodeRecord [0x10, 0x10, 0x07, 0x00, 0x00] = .error (.reservedFlags 0x10) ∧
    decodeRecord [0x09, 0x00, 0x00, 0x02] = .error (.badPresence 0x02) ∧
    decodeRecord [0x53, 0x02] = .error (.badBoolean 0x02) := by decide

/-- Every code of rule R120, with operand bytes of zero, decodes to an operation with that code. -/
theorem test_table_words :
    ([0x01, 0x02, 0x04, 0x05, 0x08, 0x09, 0x10, 0x11, 0x12, 0x20, 0x21, 0x22, 0x23, 0x30, 0x40, 0x41, 0x50, 0x51, 0x52,
      0x53] : List Nat).all (fun w => (decodeTableWord 8 w).map opcode == some (BitVec.ofNat 8 w)) = true := by
  decide +kernel

/-- The operation of a table word is the first one a step runs after reset: KEY_CLEAR answers OK, EXEC with no flag set
answers UnknownCommand. -/
theorem test_step_runs_table_words :
    (stateOf State.reset (step (State.reset.withFetchWord 8 0x12))).out = [.res (.ok [])] ∧
    (stateOf State.reset (step (State.reset.withFetchWord 8 0x10))).out = [.res (.error .unknownCommand)] := by
  decide +kernel

/-- V128: an unknown code, and a reserved flag bit, on CMD. -/
theorem test_step_illegal :
    (stateOf State.reset (step { State.reset with inbox := [.record .cmd [0x03]] })).out = [.res (.error .illegalOp)] ∧
    (stateOf State.reset (step { State.reset with inbox := [.record .cmd [0x10, 0xF1, 0x07, 0, 0]] })).out =
      [.res (.error .illegalOp)] := by decide +kernel

/-! ### The pure units -/

/-- V3 and V25. -/
theorem test_crc16 : outputs (.crc16 [0x41, 0x42, 0x43]) State.reset = [.res (.ok [0x9B, 0x06])] ∧
    outputs (.crc16 [0x31, 0x32, 0x33, 0x34, 0x35, 0x36, 0x37, 0x38, 0x39]) State.reset = [.res (.ok [0xE7, 0xAE])] := by
  decide +kernel

/-- The residues of rule R144. -/
theorem test_crc_residue :
    crc16Val [0x80, 0x01, 0x11, 0x65, 0x82] = 0xD05D ∧ crc16Val [0x80, 0x01, 0x11, 0x82, 0x65] = 0 := by decide +kernel

/-- V36 and V35. -/
theorem test_stuff :
    outputs (.stuff [0x00, 0x01, 0x7F, 0x20, 0x0A]) State.reset = [.res (.ok [0x00, 0x01, 0x7F, 0x7F, 0x20, 0x0A])] ∧
    outputs (.stuff [0x7E, 0x7F, 0x80]) State.reset = [.res (.ok [0x7E, 0x7F, 0x7F, 0x80])] := by decide +kernel

/-- The strings with an odd run of rule R147. -/
theorem test_unstuff : unstuff [0x7F] = none ∧ unstuff [0x01, 0x7F, 0x02] = none ∧
    unstuff [0x7E, 0x7F, 0x7F, 0x80] = some [0x7E, 0x7F, 0x80] := by decide +kernel

/-- The products of rule R194 and the table entries of rules R195 and R196. -/
theorem test_aes_tables : gmul 0x57 0x02 = 0xAE ∧ gmul 0x57 0x13 = 0xFE ∧ xtime 0x80 = 0x1B ∧ sbox 0x00 = 0x63 ∧
    sbox 0x53 = 0xED ∧ sbox 0xFF = 0x16 ∧ invSbox 0x63 = 0x00 ∧ invSbox 0x00 = 0x52 := by decide +kernel

/-- The inverse permutation (rule R196). -/
theorem test_aes_inverse_table :
    (List.range 256).all (fun n => invSbox (sbox (BitVec.ofNat 8 n)) == BitVec.ofNat 8 n) = true := by decide +kernel

/-- Round key 10 of the table of rule R197. -/
theorem test_aes_round_key : roundKey keyOne 10 =
    [0x13, 0x11, 0x1D, 0x7F, 0xE3, 0x94, 0x4A, 0x17, 0xF3, 0x07, 0xA7, 0x8B, 0x4D, 0x2B, 0x30, 0xC5] := by
  decide +kernel

/-- V60. -/
theorem test_aesEnc : outputs
    (.aesEnc keyOne
      [0x00, 0x11, 0x22, 0x33, 0x44, 0x55, 0x66, 0x77, 0x88, 0x99, 0xAA, 0xBB, 0xCC, 0xDD, 0xEE, 0xFF]) State.reset =
    [.res (.ok [0x69, 0xC4, 0xE0, 0xD8, 0x6A, 0x7B, 0x04, 0x30, 0xD8, 0xCD, 0xB7, 0x80, 0x70, 0xB4, 0xC5, 0x5A])] := by
  decide +kernel

/-- V68. -/
theorem test_aesEnc_fails :
    outputs (.aesEnc (List.replicate 15 0) (List.replicate 16 0)) State.reset = [.res (.error .encryptionFailure)] ∧
    outputs (.aesEnc keyK (List.replicate 15 0)) State.reset = [.res (.error .encryptionFailure)] := by decide +kernel

/-- V66. -/
theorem test_aesDec : outputs (.aesDec keyK (List.replicate 16 0)) State.reset =
    [.res (.ok [0x9C, 0x5F, 0xC9, 0xA5, 0x75, 0xD2, 0x7B, 0x68, 0xE5, 0x58, 0xFD, 0xC0, 0xF8, 0x25, 0xE6, 0xC9])] := by
  decide +kernel

/-- V69. -/
theorem test_aesDec_fails :
    outputs (.aesDec (List.replicate 17 0) (List.replicate 16 0)) State.reset = [.res (.error .decryptionFailure)] ∧
    outputs (.aesDec keyK (List.replicate 17 0)) State.reset = [.res (.error .decryptionFailure)] := by decide +kernel

/-- V74 and V77. -/
theorem test_build :
    outputs (.build ⟨true, true, false, false⟩ 0x06 0x80 none 0 [0x7F]) State.reset =
      [.res (.ok [0x7F, 0x80, 0x02, 0x06, 0x7F, 0x7F, 0x31, 0x95])] ∧
    outputs (.build ⟨true, true, false, false⟩ 0x06 0x80 none 0 []) State.reset = [.res (.error .argsRequired)] := by
  decide +kernel

/-- V75: the eight padding bytes are the queued draws. -/
theorem test_build_encrypted :
    outputs (.build ⟨true, false, false, false⟩ 0x07 0x80 (some keyK) 0 [])
        { State.reset with draws := List.replicate 8 0xAA } =
      [.res (.ok [0x7F, 0x80, 0x11, 0x7E, 0x22, 0x54, 0xF6, 0xD3, 0xA5, 0x37, 0x85, 0x94, 0x50, 0x54, 0xB4, 0xE1, 0xF7,
        0x1C, 0x58, 0x68, 0x43, 0xDB])] := by
  decide +kernel

/-- V90, V95 and V91. -/
theorem test_extract :
    outputs (.extract syncPacket none 0) State.reset = [.res (.ok [0x11])] ∧
    outputs (.extract [0x7F, 0x80, 0x01, 0xF0, 0x80, 0x23] none 0) State.reset = [.res (.error .crcMismatch)] ∧
    outputs (.extract [0x7E, 0x80, 0x00, 0x00, 0x00] none 0) State.reset = [.res (.error .unknownResponse)] := by decide +kernel

/-- V96 and V97. -/
theorem test_extract_encrypted :
    outputs (.extract frame96 (some keyK) 0) State.reset = [.res (.ok [0xF0])] ∧
    outputs (.extract frame96 (some keyK) 1) State.reset = [.res (.error .counterMismatch)] := by decide +kernel

/-! ### The session -/

/-- V110. -/
theorem test_exec : after (.exec ⟨true, false, false, true⟩ 0x11 []) State.reset =
    { syncSent with out := [.txd syncPacket, .res (.ok [])] } := by decide +kernel

/-- V111 and V113. -/
theorem test_exec_refused :
    outputs (.exec ⟨true, false, false, false⟩ 0x07 []) syncSent = [.res (.error .alreadyProcessing)] ∧
    outputs (.exec ⟨true, true, true, false⟩ 0x42 [0x01]) State.reset = [.res (.error .encryptionRequired)] := by decide +kernel

/-- V124. -/
theorem test_keyInstall : after (.keyInstall keyK) State.reset =
    { State.reset with key := keyK, keyV := true, out := [.res (.ok [])] } := by decide +kernel

/-- V125. -/
theorem test_keyClear : after .keyClear { State.reset with keyV := true, eCount := 2 } =
    { State.reset with out := [.res (.ok [])] } := by decide +kernel

/-- P3 step 5 and V43. -/
theorem test_rxByte :
    after (.rxByte 0x7F) { syncSent with rxs := .awaitStuff, rxBuf := [0x7F, 0x80, 0x03, 0xF0] } =
      { syncSent with rxs := .inFrame, rxBuf := [0x7F, 0x80, 0x03, 0xF0, 0x7F] } ∧
    after (.rxByte 0x7F) { State.reset with rxs := .inFrame, rxBuf := [0x7F] } = State.reset := by decide +kernel

/-- V116: the response of V110, and V5: two stray markers before it. -/
theorem test_rxChunk :
    after (.rxChunk [0x7F, 0x80, 0x01, 0xF0, 0x23, 0x80]) syncSent =
      { syncSent with seq := false, proc := false, tmr := false, sess := .idle, out := [.res (.completed [0xF0])] } ∧
    (after (.rxChunk [0x7F, 0x7F, 0x7F, 0x80, 0x01, 0xF0, 0x23, 0x80]) syncSent).out = [.res (.completed [0xF0])] := by
  decide +kernel

/-- V44 and V48. -/
theorem test_rxChunk_loses :
    (after (.rxChunk [0x7F, 0x80, 0x09, 0xF0, 0x7F, 0x7F, 0x00, 0x01, 0xF0, 0x20, 0x0A]) State.reset).rxBuf =
      [0x7F, 0x80, 0x09, 0xF0, 0x7F, 0x00, 0x01, 0xF0, 0x20, 0x0A] ∧
    (after (.rxChunk [0x7F, 0x80, 0x05, 0x01, 0x7F, 0x00, 0x01]) State.reset).rxBuf = [0x7F, 0x00, 0x01] := by decide +kernel

/-- V126 and V50. -/
theorem test_rxFlush :
    after .rxFlush { syncSent with rxs := .awaitStuff, rxBuf := [0x7F, 0x80, 0x03, 0xF0] } =
      { syncSent with attempt := 2, lastCause := .crcMismatch, out := [.txd syncPacket] } ∧
    after .rxFlush State.reset = State.reset := by decide +kernel

/-- V118 and V127. -/
theorem test_frameIn :
    after (.frameIn [0x7F, 0x00, 0x01, 0xF0, 0x20, 0x0B]) syncSent =
      { syncSent with attempt := 2, lastCause := .sequenceMismatch, out := [.txd syncPacket] } ∧
    (after (.frameIn syncPacket) syncSent).out = [.res (.completed [0x11])] := by decide +kernel

/-- P4 step 4: an encrypted response advances ECOUNT. -/
theorem test_frameIn_encrypted :
    (after (.frameIn frame96) { syncSent with keyV := true, key := keyK }).eCount = 1 ∧
    (after (.frameIn frame96) { syncSent with keyV := true, key := keyK, eCount := 1 }).lastCause = .counterMismatch := by
  decide +kernel

/-- V120 and V121. -/
theorem test_timeout :
    after .timeout syncSent = { syncSent with attempt := 2, lastCause := .timeout, out := [.txd syncPacket] } ∧
    (after .timeout { syncSent with cfg := { Config.initial with commandRetries := ⟨1, by decide⟩ } }).out =
      [.res (.commandFailed 1 .timeout)] := by decide +kernel

/-! ### The host's side -/

/-- V130 and V134. -/
theorem test_modexp : modexp 7 3 5 = 3 ∧ modexp 631 0x0BADCAFE 32771 = 2035 := by decide +kernel

/-- V132 and V135. -/
theorem test_genKeypair :
    (after .genKeypair { State.reset with draws := [32771, 65521, 0x12345678] }).host.results =
      [.keyPair ⟨65521, 32771, 305419896, 631⟩] ∧
    (after .genKeypair { State.reset with draws := [65521, 65521, 5] }).host.hostInter = some 0 := by decide +kernel

/-- The zero check of rule R300 stops before the third draw. -/
theorem test_genKeypair_zero :
    (after .genKeypair { State.reset with draws := [7, 0, 5] }).host.results = [.keyExchangeFailure 0 none] ∧
    (after .genKeypair { State.reset with draws := [7, 0, 5] }).draws = [5] := by decide +kernel

/-- V133, and a response that is not 8 bytes (rule R302). -/
theorem test_deriveKey :
    (after (.deriveKey [0xE5, 0x56, 0, 0, 0, 0, 0, 0] 0x0123456701234567 0x12345678 32771) State.reset).host.results =
      [.derived 22245 2035 keyK] ∧
    (after (.deriveKey [0xE5, 0x56] 0x0123456701234567 0x12345678 32771) State.reset).host.results =
      [.keyExchangeFailure 0 none] := by decide +kernel

/-- The state before P5 step 3, with the codec of the examples. -/
def beforeExchange : State :=
  { State.reset with
    cfg := { Config.initial with codec := .sample }, seq := false, draws := [32771, 65521, 0x12345678] }

/-- P5 steps 3 to 5: the key pair and KEY_CLEAR in one step, the first EXEC in the next. -/
theorem test_initEncryption :
    outputs .initEncryption beforeExchange = [.res (.ok [])] ∧
    (let s := after .initEncryption { beforeExchange with inbox := [.hostRun 0] }
     (stateOf s (step s)).out) =
      [.res (.ok []), .txd [0x7F, 0x00, 0x09, 0x4A, 0xF1, 0xFF, 0, 0, 0, 0, 0, 0, 0xAB, 0x45], .res (.ok [])] := by
  decide +kernel

/-- A host that holds its key pair and waits at step 3, with the device's response of P5. -/
def exchangeEnds : State :=
  { beforeExchange with
    host := { HostSide.reset with
      hostRandom := some 0x12345678, modulus := some 32771,
      tasks := [.awaiting .requestKeyExchange (.initStep 3 ⟨65521, 32771, 0x12345678, 631⟩) 0] }
    out := [.res (.completed [0xF0, 0xE5, 0x56, 0, 0, 0, 0, 0, 0])], inbox := [.hostRun 0] }

/-- P5 steps 11 and 12: the host goes on with step 3 after the device's response. -/
theorem test_initEncryption_ends :
    (stateOf exchangeEnds (step exchangeEnds)).key = keyK ∧ (stateOf exchangeEnds (step exchangeEnds)).keyV = true ∧
    (stateOf exchangeEnds (step exchangeEnds)).host.results = [.initDone] := by decide +kernel

/-- A machine whose host uses the codec of the examples, with nothing in flight. -/
def sampleReset : State := { State.reset with cfg := { Config.initial with codec := .sample } }

/-- A host whose argument encoder fails. -/
def noEncoder : Config := { Config.initial with codec := .rejecting }

/-- Rule R325: ENABLE is issued and waited for; refused while a command is in flight; rule R322: the encoder fails. -/
theorem test_enable :
    (after .enable sampleReset).host.tasks = [.awaiting .enable .enable 2] ∧
    (after .enable { syncSent with cfg := sampleReset.cfg }).host.results =
      [.command .enable (.refused .alreadyProcessing)] ∧
    after .enable { State.reset with cfg := noEncoder } = { State.reset with
      cfg := noEncoder, host := { HostSide.reset with results := [.command .enable .encodeFailed] } } := by decide +kernel

/-- Rule R326: polling is stopped first; while a command is in flight the whole of it waits. -/
theorem test_disable :
    (after .disable { sampleReset with host := { HostSide.reset with polling := true, pollScheduled := true } }).host =
      { HostSide.reset with tasks := [.awaiting .disable .disable 2] } ∧
    (after .disable syncSent).host.tasks = [.disableWait] := by decide +kernel

/-- Rule R327. -/
theorem test_poll :
    (after (.poll true) State.reset).host = { HostSide.reset with polling := true, pollScheduled := true } ∧
    (after (.poll false) syncSent).host.tasks = [.pollWait false none] := by decide +kernel

/-- Rule R328: a poll cycle that fails stops polling and reports; rule R323: the host's other events. -/
theorem test_poll_cycle_fails :
    let s : State := { syncSent with
      cfg := sampleReset.cfg, host := { HostSide.reset with polling := true, pollScheduled := true },
      inbox := [.pollTimer] }
    let u : State := { s with inbox := [.freeEvent .opened] }
    (stateOf s (step s)).host.polling = false ∧
    (stateOf s (step s)).host.events = [.error (.refused .alreadyProcessing)] ∧
    (stateOf u (step u)).host.events = [.free .opened] := by decide +kernel

/-- Rule R321: a command of the table that the rules do not name, and one that the table does not hold. -/
theorem test_other_command :
    let s : State := { State.reset with
      cfg := { Config.initial with codec := .sample, commands := [(.other "GET_SERIAL_NUMBER", ⟨0x0C, false, false⟩)] }
      inbox := [.hostExec (.other "GET_SERIAL_NUMBER") []] }
    let u : State := { s with inbox := [.hostExec (.other "NO_SUCH_COMMAND") []] }
    (stateOf s (step s)).txBuf.take 4 = [0x7F, 0x80, 0x01, 0x0C] ∧
    (stateOf u (step u)).out = [.res (.error .unknownCommand)] := by decide +kernel

/-! ### Witnesses: for every statement with hypotheses, values that meet them, clause by clause -/

/-- The bytes of a result that is no error. -/
def okBytes (r : Except Status Bytes) : Bytes :=
  match r with
  | .ok b => b
  | .error _ => []

/-- V74's packet, and V75's with its padding of AA. -/
def packet74 : Bytes := [0x7F, 0x80, 0x02, 0x06, 0x7F, 0x7F, 0x31, 0x95]
def packet75 : Bytes :=
  [0x7F, 0x80, 0x11, 0x7E, 0x22, 0x54, 0xF6, 0xD3, 0xA5, 0x37, 0x85, 0x94, 0x50, 0x54, 0xB4, 0xE1, 0xF7, 0x1C, 0x58, 0x68,
   0x43, 0xDB]

/-- Flags of a known command: nothing required, arguments required, encryption required. -/
def plainFlags : CmdFlags := ⟨true, false, false, false⟩
def argFlags : CmdFlags := ⟨true, true, false, false⟩
def encFlags : CmdFlags := ⟨true, false, true, false⟩

/-- A session with the key of V64 installed. -/
def keyed : State := { State.reset with key := keyK, keyV := true }

/-- A command in flight at its last attempt. -/
def lastAttempt : State := { syncSent with attempt := 20 }

/-- A command in flight in a session with a key. -/
def keyedSent : State := { syncSent with key := keyK, keyV := true }

/-- A host whose command table is empty. -/
def noCommands : State := { sampleReset with cfg := { Config.initial with codec := .sample, commands := [] } }

/-- A host that waits for its command `name`, whose final record is `r`. -/
def hostWaits (name : CommandName) (k : Continuation) (r : Res) : State :=
  { sampleReset with
    host := { HostSide.reset with tasks := [.awaiting name k 0] }, out := [.res r], inbox := [.hostRun 0] }

/-- FRAME_IN goes on with the state after it. -/
theorem frameIn_after (f : Bytes) (s : State) : exec (.frameIn f) s = .next (after (.frameIn f) s) :=
  rfl

/-- The host going on with its one procedure goes on with the state after it. -/
theorem step_exchangeEnds : step exchangeEnds = .next (stateOf exchangeEnds (step exchangeEnds)) :=
  rfl

/-- A direct REQUEST_KEY_EXCHANGE whose response carries two bytes returns the failure that DERIVE_KEY raises, and nothing
more (rules R17, R302 and R329; spec/46_host_sequences.md, `exec` in its opening). -/
theorem test_directKeyExchange_raises :
    let s := { exchangeEnds with
      host := { exchangeEnds.host with tasks := [.awaiting .requestKeyExchange .report 0] }
      out := [.res (.completed [0xF0, 1, 2])] }
    (stateOf s (step s)).host.results = [.command .requestKeyExchange (.raised .keyExchangeFailure)] ∧
    (stateOf s (step s)).keyV = false := by
  decide +kernel

theorem witness_DecodeInvertsEncode :
    WellFormed (.keyInstall keyK) = true ∧ WellFormed (.exec encFlags 0xFF [1, 2]) = true ∧
    WellFormed (.build plainFlags 0 0 (some keyK) 0xFFFFFFFF []) = true ∧
    WellFormed (.deriveKey [] 0 (2 ^ 64 - 1) 0) = true ∧ WellFormed (.poll false) = true := by
  decide +kernel

theorem witness_EncodeInvertsDecode : decodeRecord [0x22, 0x00, 0x00] = .ok (.rxChunk []) := by
  decide +kernel

theorem witness_StepRunsTheDecodedOperation :
    (syncSent.setInbox [.record .tmo [0x30]]).inbox = [.record (portOf .timeout) [0x30]] ∧
    decodeRecord [0x30] = .ok .timeout ∧ WellFormed .timeout = true := by
  decide +kernel

/-- An operation of RXD is none of CMD; the codes next to the listed ones; the lowest and the highest reserved bit. -/
theorem witness_IllegalCmdRecordsAnswered :
    (¬ ∃ i, WellFormed i = true ∧ portOf i = .cmd ∧ encode i = [0x20, 0x55]) ∧
    (([0x00, 0x03, 0x06, 0x0A, 0x13, 0xFF] : Bytes).all fun code =>
      decide (code ∉ ([0x01, 0x02, 0x04, 0x05, 0x08, 0x09, 0x10, 0x11, 0x12] : Bytes))) = true ∧
    (0x10 : Byte).extractLsb' 4 4 ≠ 0 ∧ (0x80 : Byte).extractLsb' 4 4 ≠ 0 := by
  refine ⟨?_, by decide, by decide, by decide⟩
  rintro ⟨i, -, hp, he⟩
  cases i <;> simp [portOf] at hp <;> simp [encode, opcode] at he

theorem witness_StuffLaws :
    stuff [0x01, 0x7F] = [0x01] ++ List.replicate 2 0x7F ++ [] ∧ ([0x01] : Bytes).getLast? ≠ some 0x7F ∧
    ([] : Bytes).head? ≠ some 0x7F := by
  decide +kernel

theorem witness_AesAnswers :
    (keyK.drop 1).length ≠ 16 ∧ (List.replicate 17 (0 : Byte)).length % 16 ≠ 0 ∧ keyK.length = 16 ∧
    (List.replicate 32 (0 : Byte)).length % 16 = 0 ∧ 16 * 1 < (List.replicate 32 (0 : Byte)).length := by
  decide +kernel

theorem witness_AesDecryptInvertsEncrypt :
    keyK.length = 16 ∧ (List.replicate 16 (0 : Byte)).length % 16 = 0 ∧ ([] : Bytes).length % 16 = 0 ∧
    aesEncrypt keyK [] = .ok [] ∧
    aesEncrypt keyK (List.replicate 16 0) = .ok (cipher (keyExpansion keyK) (List.replicate 16 0)) ∧
    aesDecrypt keyK (List.replicate 16 0) = .ok (invCipher (keyExpansion keyK) (List.replicate 16 0)) ∧
    (List.replicate 16 (0 : Byte)).length = 16 ∧
    cipher (keyExpansion keyK) (List.replicate 16 0) = okBytes (aesEncrypt keyK (List.replicate 16 0)) := by
  decide +kernel

theorem witness_KeyExpansionWordByWord : keyOne.length = 16 ∧ 3 < 4 ∧ 43 % 4 ≠ 0 ∧ 4 ≤ 40 ∧ 40 ≤ 43 ∧ 40 % 4 = 0 := by
  decide +kernel

theorem witness_BuildEncryptedAnswers :
    (keyK.drop 1).length ≠ 16 ∧ keyK.length = 16 ∧ argFlags.reqArgs = true ∧
    (List.replicate 233 (0 : Byte)).length > 232 ∧ (List.replicate 232 (0 : Byte)).length ≤ 232 ∧
    plainFlags.reqArgs = false := by
  decide +kernel

theorem witness_BuiltPacketShape :
    wfOptKey none = true ∧ wfOptKey (some keyK) = true ∧ (List.replicate 7 (0 : Byte)).length = padLen (1 + 1) ∧
    (List.replicate 8 (0xAA : Byte)).length = padLen (0 + 1) ∧ (0x80 : Byte) ≠ 0x7F ∧
    buildPacket true 0x06 [0x7F] 0x80 none 0 (List.replicate 7 0) = .ok packet74 ∧
    buildPacket false 0x07 [] 0x80 (some keyK) 0 (List.replicate 8 0xAA) = .ok packet75 := by
  decide +kernel

theorem witness_ExtractWithKeyAnswers :
    (keyK.drop 1).length ≠ 16 ∧ keyK.length = 16 ∧ ([] : Bytes).head? ≠ some 0x7F ∧
    ([0x7F, 0x80] : Bytes).head? = some 0x7F ∧ ([0x7F, 0x80] : Bytes).length < 5 ∧
    [0x7F, 0x80, 0x01, 0xF0, 0x80, 0x23].length = (byteAt [0x7F, 0x80, 0x01, 0xF0, 0x80, 0x23] 2).toNat + 5 ∧
    crc16 [0x80, 0x01, 0xF0] ≠ [0x80, 0x23] ∧
    ([0xF0] : Bytes).head? ≠ some 0x7E ∧ (List.replicate 15 (0 : Byte)).length % 16 ≠ 0 ∧
    ((frame96.drop 4).take 16).length + 1 ≤ 255 ∧
    aesDecrypt keyK ((frame96.drop 4).take 16) = .ok (okBytes (aesDecrypt keyK ((frame96.drop 4).take 16))) ∧
    frame96 = 0x7F :: packetBody 0x80 (0x7E :: (frame96.drop 4).take 16) := by
  decide +kernel

/-- The clause of `code = 0x7E` besides those of `witness_BuiltPacketShape`. -/
theorem witness_CodecRoundTrip :
    State.reset.rxs = .idle ∧ State.reset.rxBuf = [] ∧ (List.replicate 8 (0 : Byte)).length = padLen (0 + 1) ∧
    buildPacket false 0x7E [] 0x80 none 0 (List.replicate 8 0) = .ok (wirePacket 0x80 [0x7E]) := by
  decide +kernel

/-- The seven arms, with a byte that only joins the frame and one that completes it. -/
theorem witness_RxByteArms :
    State.reset.rxs = .idle ∧
    (State.reset.setRx .inFrame [0x7F]).rxBuf.length = 1 ∧
    (State.reset.setRx .inFrame [0x7F, 0x80]).rxBuf.length ≠ 1 ∧
    (after (.rxByte 0x23) (State.reset.setRx .inFrame [0x7F, 0x80, 0x00, 0x01])).rxs = .idle ∧
    (after (.rxByte 0x23) (State.reset.setRx .inFrame [0x7F, 0x80, 0x01, 0x01])).rxs = .inFrame ∧
    (after (.rxByte 0x7F) (State.reset.setRx .awaitStuff [0x7F, 0x80, 0x00, 0x01])).rxs = .idle ∧
    (after (.rxByte 0x01) (State.reset.setRx .awaitStuff [0x7F, 0x80])).rxBuf = [0x7F, 0x01] := by
  decide +kernel

theorem witness_ChunkingDoesNotMatter : ([[1], [], [2, 3]] : List Bytes).flatten = ([[1, 2], [3]] : List Bytes).flatten := by
  decide +kernel

/-- An empty and a partial buffer while IDLE; in flight one byte, a wrong and a right sequence byte, an attempt left and
none. -/
theorem witness_FlushHandsOverThePartialFrame :
    (State.reset.setRx .inFrame [0x7F]).rxBuf ≠ [] ∧ State.reset.sess = .idle ∧ State.reset.rxBuf = [] ∧
    Sound (syncSent.setRx .inFrame [0x7F]) ∧ Sound (syncSent.setRx .inFrame [0x7F, 0x00]) ∧
    Sound (lastAttempt.setRx .awaitStuff [0x7F, 0x80]) ∧ lastAttempt.sess = .awaiting :=
  ⟨by decide, rfl, rfl, by decide +kernel, by decide +kernel, by decide +kernel, rfl⟩

/-- The shortest frame, and V90's. -/
theorem witness_WirePacketIsFramed :
    ([0x80, 0x00, 0x01, 0x02] : Bytes).length = (byteAt [0x80, 0x00, 0x01, 0x02] 1).toNat + 4 ∧
    byteAt [0x80, 0x00, 0x01, 0x02] 0 ≠ 0x7F ∧
    ([[0x7F, 0x80], [0x01, 0x11, 0x65, 0x82]] : List Bytes).flatten = 0x7F :: stuff [0x80, 0x01, 0x11, 0x65, 0x82] ∧
    ([0x80, 0x01, 0x11, 0x65, 0x82] : Bytes).length = (byteAt [0x80, 0x01, 0x11, 0x65, 0x82] 1).toNat + 4 := by
  decide +kernel

theorem witness_MarkerResynchronises :
    DecoderInv State.reset ∧ DecoderInv (State.reset.setRx .inFrame [0x7F]) ∧
    DecoderInv (State.reset.setRx .inFrame [0x7F, 0x80]) ∧
    DecoderInv (State.reset.setRx .awaitStuff [0x7F, 0x80]) ∧ (0x7E : Byte) ≠ 0x7F := by
  decide +kernel

/-- The five refusals; both limits at one byte too many. -/
theorem witness_ExecRefusals :
    syncSent.proc = true ∧ State.reset.proc = false ∧ (⟨false, true, true, true⟩ : CmdFlags).known = false ∧
    encFlags.known = true ∧ encFlags.reqEnc = true ∧ State.reset.keyV = false ∧ argFlags.known = true ∧
    argFlags.reqEnc = false ∧ argFlags.reqArgs = true ∧ keyed.proc = false ∧ keyed.keyV = true ∧
    (List.replicate 233 (0 : Byte)).length > 232 ∧ (List.replicate 255 (0 : Byte)).length > 254 := by
  decide +kernel

/-- Without a key, and with one that the command does not use; no argument, and as many as fit. -/
theorem witness_ExecAdmitsInTheClear :
    State.reset.proc = false ∧ plainFlags.known = true ∧ plainFlags.reqEnc = false ∧ State.reset.keyV = false ∧
    keyed.keyV = true ∧ keyed.cfg.encryptAll = false ∧ plainFlags.reqArgs = false ∧
    (List.replicate 254 (0 : Byte)).length ≤ 254 := by
  decide +kernel

theorem witness_ExecAdmitsEncrypted :
    keyed.proc = false ∧ encFlags.known = true ∧ keyed.keyV = true ∧ keyed.key.length = 16 ∧ encFlags.reqEnc = true ∧
    encFlags.reqArgs = false ∧ (List.replicate 232 (0 : Byte)).length ≤ 232 := by
  decide +kernel

theorem witness_KeyInstallLoadsTheKey : keyK.length = 16 ∧ (0 :: keyK).length ≠ 16 ∧ (keyK.drop 1).length ≠ 16 := by
  decide +kernel

/-- With no command in flight and with one; KEYV set by a record and by the end of a key exchange. -/
theorem witness_KeyClearDropsTheKey :
    State.reset.keyV = false ∧ syncSent.keyV = false ∧ State.reset.proc = false ∧ syncSent.proc = true ∧
    encFlags.known = true ∧ encFlags.reqEnc = true ∧
    step (State.reset.setInbox [.record .cmd (0x11 :: keyK)]) = .next (after (.keyInstall keyK) State.reset) ∧
    (after (.keyInstall keyK) State.reset).keyV = true ∧
    exchangeEnds.keyV = false ∧ step exchangeEnds = .next (stateOf exchangeEnds (step exchangeEnds)) ∧
    (stateOf exchangeEnds (step exchangeEnds)).keyV = true :=
  ⟨rfl, rfl, rfl, rfl, rfl, rfl, rfl, rfl, rfl, step_exchangeEnds, by decide +kernel⟩

/-- In the clear, and encrypted. -/
theorem witness_FrameInAccepts :
    syncSent.sess = .awaiting ∧ 2 ≤ syncPacket.length ∧ byteAt syncPacket 1 = syncSent.oSeq ∧
    extractPacket syncPacket none syncSent.eCount = .ok [0x11] ∧ keyedSent.sess = .awaiting ∧
    byteAt frame96 1 = keyedSent.oSeq ∧ extractPacket frame96 (some keyedSent.key) keyedSent.eCount = .ok [0xF0] := by
  decide +kernel

/-- Both alternatives, each with an attempt left and with none. -/
theorem witness_FrameInRejectsOrDrops :
    State.reset.sess = .idle ∧
    syncSent.sess = .awaiting ∧ lastAttempt.sess = .awaiting ∧ ([0x7F] : Bytes).length < 2 ∧
    byteAt [0x7F, 0x00] 1 ≠ syncSent.oSeq ∧ byteAt [0x7F, 0x80] 1 = syncSent.oSeq ∧
    extractPacket [0x7F, 0x80] none syncSent.eCount = .error .crcMismatch ∧
    syncSent.attempt < syncSent.cfg.commandRetries.val ∧ lastAttempt.cfg.commandRetries.val ≤ lastAttempt.attempt := by
  decide +kernel

theorem witness_TimeoutActsOnlyWhileArmed :
    syncSent.tmr = true ∧ syncSent.attempt < syncSent.cfg.commandRetries.val ∧ lastAttempt.tmr = true ∧
    lastAttempt.cfg.commandRetries.val ≤ lastAttempt.attempt ∧ State.reset.tmr = false := by
  decide +kernel

theorem witness_RetryExhaustion :
    State.reset.proc = false ∧
    exec (.exec ⟨true, false, false, true⟩ 0x11 []) State.reset =
      .next (after (.exec ⟨true, false, false, true⟩ 0x11 []) State.reset) ∧
    (after (.exec ⟨true, false, false, true⟩ 0x11 []) State.reset).proc = true ∧ 19 < State.reset.cfg.commandRetries.val :=
  ⟨rfl, rfl, by decide +kernel, by decide⟩

theorem witness_PlainResponseCompletesTheCommand :
    Sound syncSent ∧ syncSent.sess = .awaiting ∧ syncSent.rxs = .idle ∧ Sound keyedSent ∧
    ([0xF0] : Bytes).head? ≠ some 0x7E ∧
    ([[0x7F, 0x80, 0x01], [0xF0, 0x23, 0x80]] : List Bytes).flatten =
      0x7F :: stuff ((keyedSent.oSeq :: BitVec.ofNat 8 1 :: [0xF0]) ++
        crc16 (keyedSent.oSeq :: BitVec.ofNat 8 1 :: [0xF0])) := by
  decide +kernel

/-- The counter expected, and another. -/
theorem witness_EncryptedResponseAdvancesTheCounter :
    Sound keyedSent ∧ keyedSent.sess = .awaiting ∧ keyedSent.rxs = .idle ∧ keyedSent.keyV = true ∧
    (List.replicate 8 (0xAA : Byte)).length = padLen (0 + 1) ∧
    buildPacket false 0x07 [] keyedSent.oSeq (some keyedSent.key) 0 (List.replicate 8 0xAA) = .ok packet75 ∧
    (0 : Count) = ({ keyedSent with eCount := 0xFFFFFFFF } : State).eCount + 1 ∧ (0 : Count) ≠ keyedSent.eCount + 1 := by
  decide +kernel

theorem witness_ConfigurationIsConstant : step State.reset = .next State.reset :=
  rfl

theorem witness_EveryStepKeepsTheInvariants :
    Sound State.reset ∧ step State.reset = .next State.reset ∧
    Sound (syncSent.setInbox [.record .tmo [0x30]]) ∧
    step (syncSent.setInbox [.record .tmo [0x30]]) = .next (after .timeout syncSent) :=
  ⟨by decide +kernel, rfl, by decide +kernel, rfl⟩

/-- A retry, the start of a command, and a step of an idle session. -/
theorem witness_WritesCountAttempts :
    step (syncSent.setInbox [.record .tmo [0x30]]) = .next (after .timeout syncSent) ∧
    Sound (syncSent.setInbox [.record .tmo [0x30]]) ∧ (after .timeout syncSent).sess = .awaiting ∧
    step (State.reset.setInbox [.record .cmd [0x10, 0x09, 0x11, 0x00, 0x00]]) =
      .next (after (.exec ⟨true, false, false, true⟩ 0x11 []) State.reset) ∧
    Sound (State.reset.setInbox [.record .cmd [0x10, 0x09, 0x11, 0x00, 0x00]]) ∧
    (after (.exec ⟨true, false, false, true⟩ 0x11 []) State.reset).sess = .awaiting ∧
    Sound State.reset ∧ step State.reset = .next State.reset :=
  ⟨rfl, by decide +kernel, by decide +kernel,
    rfl, by decide +kernel, by decide +kernel, by decide +kernel, rfl⟩

theorem witness_RetriesRepeatTheSameBytes :
    Sound syncSent ∧ syncSent.sess = .awaiting ∧ exec .timeout syncSent = .next (after .timeout syncSent) :=
  ⟨by decide +kernel, rfl, rfl⟩

/-- A command that completes, and an EXEC that is no SYNC. -/
theorem witness_SequenceBitCountsCompletions :
    exec (.frameIn syncPacket) syncSent = .next (after (.frameIn syncPacket) syncSent) ∧
    completions (after (.frameIn syncPacket) syncSent).out = [[0x11]] ∧
    exec (.exec plainFlags 0x07 []) State.reset = .next (after (.exec plainFlags 0x07 []) State.reset) ∧
    plainFlags.isSync = false :=
  ⟨frameIn_after _ _, by decide +kernel, rfl, rfl⟩

/-- The counter kept, and the counter advanced. -/
theorem witness_CounterAdvancesOnlyOnCompletion :
    exec .timeout syncSent = .next (after .timeout syncSent) ∧
    exec (.frameIn frame96) keyedSent = .next (after (.frameIn frame96) keyedSent) ∧
    (after (.frameIn frame96) keyedSent).eCount = 1 :=
  ⟨rfl, frameIn_after _ _, by decide +kernel⟩

theorem witness_LineAgentReach :
    exec .rxFlush syncSent = .next (after .rxFlush syncSent) ∧
    exec (.rxByte 0x7F) syncSent = .next (after (.rxByte 0x7F) syncSent) ∧
    exec (.rxChunk [0x7F]) syncSent = .next (after (.rxChunk [0x7F]) syncSent) :=
  ⟨rfl, rfl, rfl⟩

theorem witness_FramingErrorNeverSurfaces :
    step State.reset = .next State.reset ∧ State.reset.lastCause ≠ .framingError ∧
    Output.res (.commandFailed 1 .timeout) ∈
      (after .timeout { syncSent with cfg := { Config.initial with commandRetries := ⟨1, by decide⟩ } }).out :=
  ⟨rfl, by decide, by decide +kernel⟩

/-- An operation after which a key is installed, and one after which there is none. -/
theorem witness_KeyUnreadWhileAbsent :
    State.reset.keyV = false ∧ exec (.keyInstall keyK) State.reset = .next (after (.keyInstall keyK) State.reset) ∧
    (after (.keyInstall keyK) State.reset).keyV = true ∧
    exec .rxFlush State.reset = .next (after .rxFlush State.reset) ∧ (after .rxFlush State.reset).keyV = false :=
  ⟨rfl, rfl, by decide +kernel, rfl, rfl⟩

theorem witness_OldCommandUnreadWhileIdle :
    State.reset.proc = false ∧ State.reset.sess = .idle ∧ State.reset.tmr = false ∧
    exec (.exec plainFlags 0x07 []) State.reset = .next (after (.exec plainFlags 0x07 []) State.reset) :=
  ⟨rfl, rfl, rfl, rfl⟩

theorem witness_ModexpIsThePower : 1 ≤ 1 ∧ modexp 7 3 1 = 0 ∧ modexp 7 0 5 = 1 := by
  decide +kernel

theorem witness_KeyAgreement :
    1 ≤ 32771 ∧ modexp (modexp 65521 5 32771) 7 32771 = modexp (modexp 65521 7 32771) 5 32771 := by
  decide +kernel

/-- Seven bytes and eight; the modulus at the ends of its ranges. -/
theorem witness_DeriveKeyComposesTheKey :
    (List.replicate 7 (0 : Byte)).length ≠ 8 ∧ (List.replicate 8 (0 : Byte)).length = 8 ∧ 1 ≤ 1 ∧ 1 ≤ 2 ^ 64 ∧
    2 ^ 64 ≤ 2 ^ 64 := by
  decide +kernel

/-- A host whose procedure INIT_ENCRYPTION is to issue the command of step `n`. -/
def hostIssues (cfg : Config) (n : Nat) : State :=
  { sampleReset with
    cfg := cfg, host := { HostSide.reset with tasks := [.initIssue n ⟨5, 3, 2, 1⟩] }, inbox := [.hostRun 0] }

/-- The zero check of both outcomes; a step whose command is admitted. -/
theorem witness_InitEncryptionBegins :
    min (({ State.reset with draws := [0, 3, 1] } : State).draw.1 % 65536) 3 = 0 ∧
    min (beforeExchange.draw.1 % 65536) (beforeExchange.draw.2.draw.1 % 65536) ≠ 0 ∧
    (hostIssues sampleReset.cfg 1).inbox = [.hostRun 0] ∧
    (hostIssues sampleReset.cfg 1).host.tasks[0]? = some (.initIssue 1 ⟨5, 3, 2, 1⟩) ∧
    encodeArgs sampleReset.cfg (initCommand 1) [initArgument 1 ⟨5, 3, 2, 1⟩] none = some [5, 0, 0, 0, 0, 0, 0, 0] ∧
    (hostIssues sampleReset.cfg 1).proc = false ∧ (hostIssues sampleReset.cfg 1).keyV = false ∧
    (commandDescriptor sampleReset.cfg (initCommand 1)).1 = ⟨true, true, false, false⟩ ∧
    (after (.exec ⟨true, true, false, false⟩ 0x4A [5, 0, 0, 0, 0, 0, 0, 0]) sampleReset).proc = true := by
  decide +kernel

/-- A command that failed, and a response that is no success; a step whose arguments cannot be encoded, and one
that the table refuses; a value that is not 8 bytes. -/
theorem witness_FailedExchangeInstallsNoKey :
    (hostWaits .setGenerator (.initStep 1 ⟨5, 3, 2, 1⟩) (.commandFailed 20 .timeout)).inbox = [.hostRun 0] ∧
    (hostWaits .setGenerator (.initStep 1 ⟨5, 3, 2, 1⟩) (.commandFailed 20 .timeout)).host.tasks[0]? =
      some (.awaiting .setGenerator (.initStep 1 ⟨5, 3, 2, 1⟩) 0) ∧
    finalRecord [.res (.commandFailed 20 .timeout)] = some (.error (20, .timeout)) ∧
    finalRecord [.res (.completed [0xF5])] = some (.ok [0xF5]) ∧
    (decodeResponse sampleReset.cfg [0xF5] .setGenerator none none).success = false ∧
    (hostIssues noCommands.cfg 2).host.tasks[0]? = some (.initIssue 2 ⟨5, 3, 2, 1⟩) ∧
    (hostIssues noEncoder 2).host.tasks[0]? = some (.initIssue 2 ⟨5, 3, 2, 1⟩) ∧
    encodeArgs noEncoder (initCommand 2) [initArgument 2 ⟨5, 3, 2, 1⟩] none = none ∧
    encodeArgs noCommands.cfg (initCommand 2) [3] none = some [3, 0, 0, 0, 0, 0, 0, 0] ∧
    (after (.exec (commandDescriptor noCommands.cfg .setModulus).1 0 [3, 0, 0, 0, 0, 0, 0, 0]) noCommands).proc = false ∧
    (hostWaits .requestKeyExchange .report (.completed [0xF0, 1, 2])).host.tasks[0]? =
      some (.awaiting .requestKeyExchange .report 0) ∧
    (decodeResponse sampleReset.cfg [0xF0, 1, 2] .requestKeyExchange none none).success = true ∧
    (decodeResponse sampleReset.cfg [0xF0, 1, 2] .requestKeyExchange none none).info.interKey.length ≠ 8 := by
  decide +kernel

theorem witness_CompletedExchangeInstallsTheKey :
    exchangeEnds.inbox = [.hostRun 0] ∧
    exchangeEnds.host.tasks[0]? = some (.awaiting .requestKeyExchange (.initStep 3 ⟨65521, 32771, 0x12345678, 631⟩) 0) ∧
    finalRecord (exchangeEnds.out.drop 0) = some (.ok [0xF0, 0xE5, 0x56, 0, 0, 0, 0, 0, 0]) ∧
    exchangeEnds.host.hostRandom = some 0x12345678 ∧ exchangeEnds.host.modulus = some 32771 ∧
    (decodeResponse exchangeEnds.cfg [0xF0, 0xE5, 0x56, 0, 0, 0, 0, 0, 0] .requestKeyExchange none none).success = true ∧
    (decodeResponse exchangeEnds.cfg [0xF0, 0xE5, 0x56, 0, 0, 0, 0, 0, 0] .requestKeyExchange none
      none).info.interKey.length = 8 ∧
    (hostWaits .setModulus (.initStep 2 ⟨5, 3, 2, 1⟩) (.completed [0xF0])).host.tasks[0]? =
      some (.awaiting (initCommand 2) (.initStep 2 ⟨5, 3, 2, 1⟩) 0) ∧
    (decodeResponse sampleReset.cfg [0xF0] (initCommand 2) none none).success = true := by
  decide +kernel

/-- A setup response with success, and a HOST_PROTOCOL_VERSION and a key exchange response without. -/
theorem witness_ResponsesTeachTheHost :
    (hostWaits .setupRequest .report (.completed [0xF0])).inbox = [.hostRun 0] ∧
    (hostWaits .setupRequest .report (.completed [0xF0])).host.tasks[0]? =
      some (.awaiting .setupRequest .report 0) ∧
    finalRecord ((hostWaits .setupRequest .report (.completed [0xF0])).out.drop 0) = some (.ok [0xF0]) ∧
    (decodeResponse sampleReset.cfg [0xF0] .setupRequest none none).success = true ∧
    (decodeResponse sampleReset.cfg [0xF8] .hostProtocolVersion none none).success = false ∧
    (decodeResponse sampleReset.cfg [0xF5] .requestKeyExchange none none).success = false := by
  decide

/-- With no command in flight and with one; an ENABLE that waits for PROC = 0; and both ends without success. -/
theorem witness_EnableSuccessStartsPolling :
    (hostWaits .enable .enable (.completed [0xF0])).inbox = [.hostRun 0] ∧
    (hostWaits .enable .enable (.completed [0xF0])).host.tasks[0]? = some (.awaiting .enable .enable 0) ∧
    (hostWaits .enable .enable (.completed [0xF0])).proc = false ∧
    ({ hostWaits .enable .enable (.completed [0xF0]) with proc := true } : State).proc = true ∧
    finalRecord ((hostWaits .enable .enable (.completed [0xF0])).out.drop 0) = some (.ok [0xF0]) ∧
    (decodeResponse sampleReset.cfg [0xF0] .enable none none).success = true ∧
    (hostWaits .enable .enable (.completed [0xF0])).host.polling = false ∧
    ({ HostSide.reset with tasks := [.pollWait true (some .encodeFailed)] } : HostSide).tasks[0]? =
      some (.pollWait true (some .encodeFailed)) ∧
    finalRecord ((hostWaits .enable .enable (.commandFailed 20 .timeout)).out.drop 0) = some (.error (20, .timeout)) ∧
    finalRecord ((hostWaits .enable .enable (.completed [0xF5])).out.drop 0) = some (.ok [0xF5]) ∧
    (decodeResponse sampleReset.cfg [0xF5] .enable none none).success = false := by
  decide

/-- Refused by the table, refused while a command is in flight, and admitted. -/
theorem witness_EnableIssuesItsCommand :
    noCommands.proc = false ∧ encodeArgs noEncoder .enable [] none = none ∧
    encodeArgs noCommands.cfg .enable [] none = some [] ∧
    (after (.exec (commandDescriptor noCommands.cfg .enable).1 0 []) noCommands).proc = false ∧
    syncSent.proc = true ∧ sampleReset.proc = false ∧
    (after (.exec (commandDescriptor sampleReset.cfg .enable).1 0x0A []) sampleReset).proc = true := by
  decide +kernel

/-- While a command is in flight; refused by the table; admitted; both ends; and one that waits. -/
theorem witness_DisableStopsPollingFirst :
    syncSent.proc = true ∧ noCommands.proc = false ∧ encodeArgs noEncoder .disable [] none = none ∧
    encodeArgs noCommands.cfg .disable [] none = some [] ∧
    (after (.exec (commandDescriptor noCommands.cfg .disable).1 0 []) noCommands).proc = false ∧
    sampleReset.proc = false ∧
    (after (.exec (commandDescriptor sampleReset.cfg .disable).1 0x09 []) sampleReset).proc = true ∧
    (hostWaits .disable .disable (.completed [0xF0])).inbox = [.hostRun 0] ∧
    (hostWaits .disable .disable (.completed [0xF0])).host.tasks[0]? = some (.awaiting .disable .disable 0) ∧
    finalRecord ((hostWaits .disable .disable (.completed [0xF0])).out.drop 0) = some (.ok [0xF0]) ∧
    finalRecord ((hostWaits .disable .disable (.commandFailed 20 .timeout)).out.drop 0) = some (.error (20, .timeout)) ∧
    ({ HostSide.reset with tasks := [.disableWait] } : HostSide).tasks[0]? = some .disableWait := by
  decide +kernel

theorem witness_PollSetsPolling :
    syncSent.proc = true ∧ State.reset.proc = false ∧
    ({ State.reset with host := { HostSide.reset with polling := true } } : State).host.polling = true ∧
    State.reset.host.polling = false ∧
    ({ HostSide.reset with tasks := [.pollWait false none] } : HostSide).tasks[0]? = some (.pollWait false none) := by
  decide +kernel

/-- The timer with no cycle scheduled, with one while polling and while not; POLL refused and admitted; and both ends. -/
theorem witness_PollCycleGoesOnOrStops :
    (State.reset.setInbox [.pollTimer]).inbox = [.pollTimer] ∧ State.reset.host.pollScheduled = false ∧
    State.reset.host.polling = false ∧
    ({ HostSide.reset with polling := true, pollScheduled := true } : HostSide).pollScheduled = true ∧
    ({ HostSide.reset with polling := true, pollScheduled := true } : HostSide).polling = true ∧
    encodeArgs noEncoder .poll [] none = none ∧ encodeArgs noCommands.cfg .poll [] none = some [] ∧
    encodeArgs sampleReset.cfg .poll [] none = some [] ∧
    (after (.exec (commandDescriptor noCommands.cfg .poll).1 0 []) noCommands).proc = false ∧
    (after (.exec (commandDescriptor sampleReset.cfg .poll).1 0x07 []) sampleReset).proc = true ∧
    (hostWaits .poll .pollCycle (.completed [0xF0])).host.tasks[0]? = some (.awaiting .poll .pollCycle 0) ∧
    finalRecord [.res (.completed [0xF0])] = some (.ok [0xF0]) ∧
    finalRecord [.res (.commandFailed 20 .timeout)] = some (.error (20, .timeout)) := by
  decide +kernel

end Sys2Proof.Tests
end

