-- ==== Sys2Proof/Proofs/IllegalRecords.lean ====
section
/-! PROOF. What the decoder reads is the operation's own record: each operand reader answers an encoded operand and the
rest (rule R121).  From it, rule R123: a CMD record that is no CMD operation's own record is illegal. -/

namespace Sys2Proof

open Sys2Proof.Machine

/-! ### Operands read are operands encoded -/

/-- Little-endian numerals of one length determine their bytes. -/
theorem fromLe_injective {xs ys : Bytes} (hl : xs.length = ys.length) (h : fromLe xs = fromLe ys) : xs = ys := by
  induction xs generalizing ys with
  | nil => exact (List.length_eq_zero_iff.mp hl.symm).symm
  | cons x xs ih =>
    cases ys with
    | nil => cases hl
    | cons y ys =>
      have hx := x.isLt
      have hy := y.isLt
      simp only [fromLe] at h
      have hhead : x = y := BitVec.eq_of_toNat_eq (by omega)
      have htail : xs = ys := ih (by simpa using hl) (by omega)
      rw [hhead, htail]

/-- Bytes whose value is that of `xs`, cut to the width of `xs`, are `xs`. -/
theorem eq_of_fromLe_eq_ofNat {w : Nat} {xs ys : Bytes} (hl : ys.length = xs.length) (hw : 256 ^ xs.length = 2 ^ w)
    (h : fromLe ys = (BitVec.ofNat w (fromLe xs)).toNat) : ys = xs := by
  refine fromLe_injective hl ?_
  rw [h, BitVec.toNat_ofNat, Nat.mod_eq_of_lt (hw ▸ fromLe_lt xs)]

theorem le16_fromLe {xs : Bytes} (h : xs.length = 2) : le16 (BitVec.ofNat 16 (fromLe xs)) = xs :=
  eq_of_fromLe_eq_ofNat h.symm (by simp [h]) (fromLe_le16 _)

theorem le32_fromLe {xs : Bytes} (h : xs.length = 4) : le32 (BitVec.ofNat 32 (fromLe xs)) = xs :=
  eq_of_fromLe_eq_ofNat h.symm (by simp [h]) (fromLe_le32 _)

theorem le64_fromLe {xs : Bytes} (h : xs.length = 8) : le64 (BitVec.ofNat 64 (fromLe xs)) = xs :=
  eq_of_fromLe_eq_ofNat h.symm (by simp [h]) (fromLe_le64 _)

theorem takeByte_ok {bs r : Bytes} {b : Byte} (h : takeByte bs = .ok (b, r)) : bs = b :: r := by
  cases bs with
  | nil => cases h
  | cons c cs => cases h; rfl

/-- The number read is the value of the `n` bytes in front. -/
theorem takeNumber_ok {n v : Nat} {bs r : Bytes} (h : takeNumber n bs = .ok (v, r)) :
    ∃ xs, bs = xs ++ r ∧ xs.length = n ∧ fromLe xs = v := by
  unfold takeNumber at h
  split at h
  next xs rest hx =>
    cases h
    obtain ⟨hbs, hlen⟩ := takeBytes_ok hx
    exact ⟨xs, hbs, hlen, rfl⟩
  next => cases h

theorem takeNumber_four_ok {v : Nat} {bs r : Bytes} (h : takeNumber 4 bs = .ok (v, r)) :
    bs = le32 (BitVec.ofNat 32 v) ++ r := by
  obtain ⟨xs, hbs, hlen, rfl⟩ := takeNumber_ok h
  rw [le32_fromLe hlen, hbs]

theorem takeNumber_eight_ok {v : Nat} {bs r : Bytes} (h : takeNumber 8 bs = .ok (v, r)) :
    bs = le64 (BitVec.ofNat 64 v) ++ r ∧ wfInteger v = true := by
  obtain ⟨xs, hbs, hlen, rfl⟩ := takeNumber_ok h
  have hlt := fromLe_lt xs
  rw [hlen] at hlt
  exact ⟨by rw [le64_fromLe hlen, hbs], decide_eq_true hlt⟩

theorem takeString_ok {bs s r : Bytes} (h : takeString bs = .ok (s, r)) :
    bs = encodeString s ++ r ∧ wfString s = true := by
  unfold takeString at h
  split at h
  next n rest hn =>
    obtain ⟨xs, hbs, hlen, hv⟩ := takeNumber_ok hn
    obtain ⟨hrest, hs⟩ := takeBytes_ok h
    have hlt := fromLe_lt xs
    rw [hlen, hv, ← hs] at hlt
    have hprefix : le16 (BitVec.ofNat 16 s.length) = xs := by rw [hs, ← hv, le16_fromLe hlen]
    exact ⟨by rw [encodeString, hprefix, hbs, hrest, List.append_assoc], decide_eq_true hlt⟩
  next => cases h

theorem takeKey_ok {bs k r : Bytes} (h : takeKey bs = .ok (k, r)) : bs = k ++ r ∧ wfKey k = true := by
  obtain ⟨hbs, hlen⟩ := takeBytes_ok h
  exact ⟨hbs, beq_iff_eq.mpr hlen⟩

theorem takeOptKey_ok {bs r : Bytes} {key : Option Bytes} (h : takeOptKey bs = .ok (key, r)) :
    bs = encodeOptKey key ++ r ∧ wfOptKey key = true := by
  cases bs with
  | nil => cases h
  | cons b bs =>
    simp only [takeOptKey, takeByte_cons] at h
    split at h
    next hb => cases h; exact ⟨by rw [hb]; rfl, rfl⟩
    next =>
      split at h
      next hb =>
        split at h
        next k rest hk =>
          cases h
          obtain ⟨hbs, hwf⟩ := takeKey_ok hk
          exact ⟨by rw [hb, hbs]; rfl, hwf⟩
        next => cases h
      next => cases h

/-- Bits 7 to 4 of the flags byte are zero (rule R121). -/
theorem encodeFlags_reserved (f : CmdFlags) : (encodeFlags f).extractLsb' 4 4 = 0 := by
  obtain ⟨a, b, c, d⟩ := f
  revert a b c d
  decide

/-- A byte without reserved bits holds a descriptor and nothing else. -/
theorem encodeFlags_flagsOfByte (b : Byte) (h : b.extractLsb' 4 4 = 0) : encodeFlags (flagsOfByte b) = b := by
  revert b
  decide

theorem takeFlags_ok {bs r : Bytes} {f : CmdFlags} (h : takeFlags bs = .ok (f, r)) : bs = encodeFlags f :: r := by
  cases bs with
  | nil => cases h
  | cons b bs =>
    simp only [takeFlags, takeByte_cons] at h
    split at h
    next hb => cases h; rw [encodeFlags_flagsOfByte b hb]
    next => cases h

theorem takeBool_ok {bs r : Bytes} {d : Bool} (h : takeBool bs = .ok (d, r)) :
    bs = (if d then 1 else 0) :: r := by
  cases bs with
  | nil => cases h
  | cons b bs =>
    simp only [takeBool, takeByte_cons] at h
    split at h
    next hb => cases h; rw [hb]; rfl
    next =>
      split at h
      next hb => cases h; rw [hb]; rfl
      next => cases h

/-! ### Records read are records encoded -/

/-- A sequence of readers succeeds when its first reader and then the rest do. -/
theorem except_bind_ok {α β : Type} {x : Except DecodeError α} {f : α → Except DecodeError β} {b : β} :
    (x >>= f) = .ok b ↔ ∃ a, x = .ok a ∧ f a = .ok b := by
  cases x with
  | error e => simp [bind, Except.bind]
  | ok a => simp [bind, Except.bind]

/-- What is read after a code byte is the operands of a well-formed operation with that code (rules R120, R121). -/
theorem decodeOperands_ok {code : Byte} {bs r : Bytes} {i : Instr} (h : decodeOperands code bs = .ok (i, r)) :
    opcode i = code ∧ bs = encodeOperands i ++ r ∧ WellFormed i = true := by
  unfold decodeOperands at h
  split at h <;>
    simp only [except_bind_ok, Prod.exists, Except.ok.injEq, Prod.mk.injEq, reduceCtorEq] at h
  -- One byte string: CRC16, STUFF, RX_CHUNK, FRAME_IN
  case h_1 _ hc | h_2 _ hc | h_12 _ hc | h_13 _ hc =>
    obtain ⟨data, _, hdata, rfl, rfl⟩ := h
    obtain ⟨rfl, hw⟩ := takeString_ok hdata
    exact ⟨BitVec.eq_of_toNat_eq hc.symm, rfl, hw⟩
  -- A key and a byte string: AES_ENC, AES_DEC
  case h_3 _ hc | h_4 _ hc =>
    obtain ⟨key, _, hkey, data, _, hdata, rfl, rfl⟩ := h
    obtain ⟨rfl, hwk⟩ := takeKey_ok hkey
    obtain ⟨rfl, hwd⟩ := takeString_ok hdata
    exact ⟨BitVec.eq_of_toNat_eq hc.symm, by simp [encodeOperands], by simp [WellFormed, hwk, hwd]⟩
  -- BUILD
  case h_5 _ hc =>
    obtain ⟨flags, _, hflags, cmd, _, hcmd, sb, _, hsb, key, _, hkey, n, _, hn, args, _, hargs, rfl, rfl⟩ := h
    obtain rfl := takeFlags_ok hflags
    obtain rfl := takeByte_ok hcmd
    obtain rfl := takeByte_ok hsb
    obtain ⟨rfl, hwk⟩ := takeOptKey_ok hkey
    obtain rfl := takeNumber_four_ok hn
    obtain ⟨rfl, hwa⟩ := takeString_ok hargs
    exact ⟨BitVec.eq_of_toNat_eq hc.symm, by simp [encodeOperands], by simp [WellFormed, hwk, hwa]⟩
  -- EXTRACT
  case h_6 _ hc =>
    obtain ⟨frame, _, hframe, key, _, hkey, n, _, hn, rfl, rfl⟩ := h
    obtain ⟨rfl, hwf⟩ := takeString_ok hframe
    obtain ⟨rfl, hwk⟩ := takeOptKey_ok hkey
    obtain rfl := takeNumber_four_ok hn
    exact ⟨BitVec.eq_of_toNat_eq hc.symm, by simp [encodeOperands], by simp [WellFormed, hwf, hwk]⟩
  -- EXEC
  case h_7 _ hc =>
    obtain ⟨flags, _, hflags, cmd, _, hcmd, args, _, hargs, rfl, rfl⟩ := h
    obtain rfl := takeFlags_ok hflags
    obtain rfl := takeByte_ok hcmd
    obtain ⟨rfl, hw⟩ := takeString_ok hargs
    exact ⟨BitVec.eq_of_toNat_eq hc.symm, rfl, hw⟩
  -- KEY_INSTALL
  case h_8 _ hc =>
    obtain ⟨key, _, hkey, rfl, rfl⟩ := h
    obtain ⟨rfl, hw⟩ := takeKey_ok hkey
    exact ⟨BitVec.eq_of_toNat_eq hc.symm, rfl, hw⟩
  -- RX_BYTE
  case h_10 _ hc =>
    obtain ⟨b, _, hb, rfl, rfl⟩ := h
    obtain rfl := takeByte_ok hb
    exact ⟨BitVec.eq_of_toNat_eq hc.symm, rfl, rfl⟩
  -- DERIVE_KEY
  case h_16 _ hc =>
    obtain ⟨bytes, _, hbytes, fixedKey, _, hfixed, hostRandom, _, hrandom, modulus, _, hmodulus, rfl, rfl⟩ := h
    obtain ⟨rfl, hwb⟩ := takeString_ok hbytes
    obtain ⟨rfl, -⟩ := takeNumber_eight_ok hfixed
    obtain ⟨rfl, hwr⟩ := takeNumber_eight_ok hrandom
    obtain ⟨rfl, hwm⟩ := takeNumber_eight_ok hmodulus
    exact ⟨BitVec.eq_of_toNat_eq hc.symm, by simp [encodeOperands], by simp [WellFormed, hwb, hwr, hwm]⟩
  -- POLL
  case h_20 _ hc =>
    obtain ⟨desired, _, hdesired, rfl, rfl⟩ := h
    obtain rfl := takeBool_ok hdesired
    exact ⟨BitVec.eq_of_toNat_eq hc.symm, rfl, rfl⟩
  -- No operand: KEY_CLEAR, RX_FLUSH, TIMEOUT, GEN_KEYPAIR, INIT_ENCRYPTION, ENABLE, DISABLE
  case h_9 _ hc | h_11 _ hc | h_14 _ hc | h_15 _ hc | h_17 _ hc | h_18 _ hc | h_19 _ hc =>
    obtain ⟨rfl, rfl⟩ := h
    exact ⟨BitVec.eq_of_toNat_eq hc.symm, rfl, rfl⟩

/-- Only its own record decodes to an operation, and the operation is well formed (rules R121, R123). -/
theorem decodeRecord_ok {bs : Bytes} {i : Instr} (h : decodeRecord bs = .ok i) :
    encode i = bs ∧ WellFormed i = true := by
  cases bs with
  | nil => cases h
  | cons code operands =>
    unfold decodeRecord at h
    split at h
    next => cases h
    next hp =>
      cases h
      obtain ⟨hcode, hoperands, hwf⟩ := decodeOperands_ok hp
      exact ⟨by rw [encode, hcode, hoperands, List.append_nil], hwf⟩
    next => cases h

end Sys2Proof

/-! ### Records of CMD -/

namespace Sys2Proof.Machine

/-- The nine codes of CMD (rule R120). -/
theorem opcode_of_portOf_cmd {i : Instr} (h : portOf i = .cmd) :
    opcode i ∈ ([0x01, 0x02, 0x04, 0x05, 0x08, 0x09, 0x10, 0x11, 0x12] : Bytes) := by
  cases i <;> simp [portOf] at h <;> simp [opcode]

/-- The records with a flags byte are BUILD's and EXEC's, and its reserved bits are zero (rule R121). -/
theorem flags_reserved_of_encode {i : Instr} {code flags : Byte} {tail : Bytes} (h : encode i = code :: flags :: tail)
    (hcode : code = 0x08 ∨ code = 0x10) : flags.extractLsb' 4 4 = 0 := by
  obtain ⟨hop, hoperands⟩ := List.cons.inj h
  rw [← hop] at hcode
  cases i with
  | build f => cases hoperands; exact encodeFlags_reserved f
  | exec f => cases hoperands; exact encodeFlags_reserved f
  | _ => simp [opcode] at hcode

/-- Whatever is no operation of CMD is illegal there, decodable or not (rule R123). -/
theorem fetchRecord_cmd_illegal {bs : Bytes} (hill : ∀ i, decodeRecord bs = .ok i → portOf i ≠ .cmd) (s : State) :
    fetchRecord .cmd bs s = .done (illegalOp s) := by
  unfold fetchRecord
  split
  next i hdec => rw [if_neg (hill i hdec), if_pos rfl]
  next => rw [if_pos rfl]

/-- A record that is no CMD operation's own takes the input and is answered `IllegalOp` (rule R123). -/
theorem step_illegalCmdRecord {s : State} {bs : Bytes} {rest : List Input} (hin : s.inbox = .record .cmd bs :: rest)
    (hill : ¬ ∃ i, WellFormed i = true ∧ portOf i = .cmd ∧ encode i = bs) :
    step s = .next { s with inbox := rest, out := s.out ++ [.res (.error .illegalOp)] } := by
  have hother : ∀ i, decodeRecord bs = .ok i → portOf i ≠ .cmd := fun i hdec hport =>
    have ⟨henc, hwf⟩ := decodeRecord_ok hdec
    hill ⟨i, hwf, hport, henc⟩
  have hfetch : fetch s = .done (illegalOp (s.setInbox rest)) := by
    rw [fetch, hin]
    exact fetchRecord_cmd_illegal hother _
  rw [step, hfetch]
  rfl

/-- Settles O5: a code outside the nine and a reserved flag bit occur in no CMD operation's record, so the one answer to a
record that is no CMD operation's own covers all three clauses. -/
theorem illegalCmdRecordsAnswered : Obligations.IllegalCmdRecordsAnswered := by
  intro s bs rest hin
  refine ⟨step_illegalCmdRecord hin, ?unlistedCode, ?reservedFlag⟩
  case unlistedCode =>
    intro code tail hbs hcode
    refine step_illegalCmdRecord hin ?_
    rintro ⟨i, -, hport, henc⟩
    obtain ⟨hop, -⟩ := List.cons.inj (henc.trans hbs)
    exact hcode (hop ▸ opcode_of_portOf_cmd hport)
  case reservedFlag =>
    intro code flags tail hbs hcode hflags
    refine step_illegalCmdRecord hin ?_
    rintro ⟨i, -, -, henc⟩
    exact hflags (flags_reserved_of_encode (henc.trans hbs) hcode)

end Sys2Proof.Machine
end

