-- ==== Sys2Proof/Proofs/CrcStuffing.lean ====
section
/-! PROOF. The CRC unit as a linear and injective map of its register, the stuffer as a `flatMap`, and the obligations
about the two (spec/40_crc_stuffing.md). -/

namespace Sys2Proof.Machine

/-! ### One shift: what it does to each bit, linear, injective -/

/-- The shifted bit, and the polynomial's bit if the top bit was set (rule R140). -/
theorem getLsbD_crcShift (crc : CrcWord) (i : Nat) : (crcShift crc).getLsbD i =
    ((crc <<< 1).getLsbD i ^^ (crc.getLsbD 15 && crcPoly.getLsbD i)) := by
  unfold crcShift
  split
  next htop => rw [BitVec.getLsbD_xor, htop, Bool.true_and]
  next htop => rw [Bool.eq_false_iff.mpr htop, Bool.false_and, Bool.xor_false]

theorem crcShift_xor (a b : CrcWord) : crcShift (a ^^^ b) = crcShift a ^^^ crcShift b := by
  refine BitVec.eq_of_getLsbD_eq fun i _ => ?_
  simp only [BitVec.getLsbD_xor, getLsbD_crcShift, BitVec.shiftLeft_xor_distrib, Bool.and_xor_distrib_right,
    Bool.xor_assoc, Bool.xor_left_comm]

/-- The polynomial is odd, so bit 0 after the shift tells whether the top bit was set before it. -/
theorem getLsbD_zero_crcShift (crc : CrcWord) : (crcShift crc).getLsbD 0 = crc.getLsbD 15 := by
  simp [getLsbD_crcShift, -BitVec.getLsbD_eq_getElem]

theorem crcShift_injective : Function.Injective crcShift := by
  intro a b h
  have htop : a.getLsbD 15 = b.getLsbD 15 := by
    rw [← getLsbD_zero_crcShift, h, getLsbD_zero_crcShift]
  have hbit : ∀ i, (a <<< 1).getLsbD i = (b <<< 1).getLsbD i := by
    intro i
    have hi : (crcShift a).getLsbD i = (crcShift b).getLsbD i := by rw [h]
    rw [getLsbD_crcShift, getLsbD_crcShift, htop] at hi
    exact Bool.xor_left_inj.mp hi
  refine BitVec.eq_of_getLsbD_eq fun i hi => ?_
  rcases Nat.lt_or_ge i 15 with hlow | hhigh
  · simpa [hi, show i + 1 < 16 by omega] using hbit (i + 1)
  · rwa [show i = 15 by omega]

/-! ### Many shifts -/

theorem crcShifts_xor (n : Nat) (a b : CrcWord) : crcShifts n (a ^^^ b) = crcShifts n a ^^^ crcShifts n b := by
  induction n generalizing a b with
  | zero => rfl
  | succ n ih => rw [crcShifts, crcShift_xor, ih]; rfl

theorem crcShifts_injective (n : Nat) : Function.Injective (crcShifts n) := by
  induction n with
  | zero => exact Function.injective_id
  | succ n ih => exact ih.comp crcShift_injective

/-- While only zero bits are shifted out, the polynomial is never added. -/
theorem crcShifts_eq_shiftLeft {n : Nat} {crc : CrcWord} (h : ∀ i, 16 ≤ i + n → crc.getLsbD i = false) :
    crcShifts n crc = crc <<< n := by
  induction n generalizing crc with
  | zero => rw [BitVec.shiftLeft_zero]; rfl
  | succ n ih =>
    have hshift : crcShift crc = crc <<< 1 := by
      rw [crcShift, h 15 (by omega), if_neg Bool.false_ne_true]
    have hzero : ∀ i, 16 ≤ i + n → (crc <<< 1).getLsbD i = false := by
      intro i hi
      simp [BitVec.getLsbD_shiftLeft, h (i - 1) (by omega)]
    rw [crcShifts, hshift, ih hzero, ← BitVec.shiftLeft_add, Nat.add_comm]

theorem crcShifts_zero (n : Nat) : crcShifts n 0 = 0 :=
  (crcShifts_eq_shiftLeft fun _ _ => BitVec.getLsbD_zero).trans (BitVec.zero_shiftLeft n)

/-! ### One byte: the table-driven step -/

/-- The register with a byte xored into bits 15:8: the table index in bits 15:8, the old low byte below it. -/
theorem crcInput_eq (crc : CrcWord) (b : Byte) : crc ^^^ (b.setWidth 16 <<< 8) =
    (((crc >>> 8).setWidth 8 ^^^ b).setWidth 16 <<< 8) ^^^ (crc.setWidth 8).setWidth 16 := by
  ext i hi
  rcases Nat.lt_or_ge i 8 with hlow | hhigh
  · simp [hi, hlow]
  · simp [hi, Nat.not_lt.mpr hhigh, show i - 8 < 8 by omega, show 8 + (i - 8) = i by omega]

/-- Eight shifts move the low byte up unchanged. -/
theorem crcShifts_lowByte (crc : CrcWord) : crcShifts 8 ((crc.setWidth 8).setWidth 16) = crc <<< 8 := by
  have hzero : ∀ i, 16 ≤ i + 8 → ((crc.setWidth 8).setWidth 16).getLsbD i = false := by
    intro i hi
    simp [show ¬ i < 8 by omega]
  rw [crcShifts_eq_shiftLeft hzero]
  ext i hi
  simp [show i - 8 < 8 by omega, show i - 8 < 16 by omega]

/-- The table-driven unit makes the bit-serial unit's step (rule R142 (b)). -/
theorem crcByte_eq_tableStep (crc : CrcWord) (b : Byte) :
    crcByte crc b = crcShifts 8 (((crc >>> 8).setWidth 8 ^^^ b).setWidth 16 <<< 8) ^^^ (crc <<< 8) := by
  rw [crcByte, crcInput_eq, crcShifts_xor, crcShifts_lowByte]

theorem crcByte_injective (b : Byte) : Function.Injective fun crc : CrcWord => crcByte crc b :=
  (crcShifts_injective 8).comp fun _ _ => (BitVec.xor_left_inj _).mp

theorem crcByte_zero_zero : crcByte 0 0 = 0 :=
  crcShifts_zero 8

/-! ### A string -/

theorem crcFrom_cons (crc : CrcWord) (b : Byte) (s : Bytes) : crcFrom crc (b :: s) = crcFrom (crcByte crc b) s :=
  rfl

theorem crcFrom_append (crc : CrcWord) (s t : Bytes) : crcFrom crc (s ++ t) = crcFrom (crcFrom crc s) t :=
  List.foldl_append

theorem crcFrom_injective (s : Bytes) : Function.Injective fun crc : CrcWord => crcFrom crc s := by
  induction s with
  | nil => exact Function.injective_id
  | cons b s ih => exact ih.comp (crcByte_injective b)

/-- A register of 0 stays 0 over zero bytes. -/
theorem crcFrom_zero_replicate (n : Nat) : crcFrom 0 (List.replicate n 0) = 0 := by
  induction n with
  | zero => rfl
  | succ n ih => rw [List.replicate_succ, crcFrom_cons, crcByte_zero_zero, ih]

/-- The seed is not 0 and seeds never merge, so a string of zero bytes has no CRC of 0 (rule R141). -/
theorem crc16Val_replicate_zero_ne_zero (n : Nat) : crc16Val (List.replicate n 0) ≠ 0 := by
  intro h
  have hseed : crcSeed = 0 := crcFrom_injective _ (h.trans (crcFrom_zero_replicate n).symm)
  exact absurd hseed (by decide)

/-- Settles O8: a shift is linear, so a byte's step splits into the table's entry and the low byte moved up; it is injective,
so the whole run is, and an injective map of the finite register is a bijection. -/
theorem crcLaws : Obligations.CrcLaws := by
  refine ⟨crcFrom_append crcSeed, crcByte_eq_tableStep, ?tableDriven, ?_, ?_, ?_, ?_, ?_, ?_, ?noMerge⟩
  case tableDriven => exact fun s => List.foldl_ext _ _ _ fun crc b _ => crcByte_eq_tableStep crc b
  case noMerge => exact fun s => (crcFrom_injective s).bijective_of_finite
  -- The six entries of the table that rule R142 (b) lists.
  all_goals decide

/-! ### The stuffer -/

/-- STUFF as a map of each byte by itself (rule R145). -/
theorem stuff_eq_flatMap (s : Bytes) : stuff s = s.flatMap fun b => if b = 0x7F then [b, 0x7F] else [b] := by
  induction s with
  | nil => rfl
  | cons b s ih =>
    rw [stuff, List.flatMap_cons, ih]
    by_cases hb : b = stx
    · subst hb; rfl
    · rw [if_neg hb, if_neg (show b ≠ 0x7F from hb)]; rfl

theorem stuff_replicate_stx (k : Nat) : stuff (List.replicate k stx) = List.replicate (2 * k) stx := by
  induction k with
  | zero => rfl
  | succ k ih => rw [List.replicate_succ, stuff, if_pos rfl, ih]; rfl

/-! ### The two operations -/

/-- CRC16 emits its result and nothing else (rule R141). -/
theorem exec_crc16 (data : Bytes) (s : State) : exec (.crc16 data) s = .next (s.respond (.ok (crc16 data))) :=
  rfl

/-- STUFF emits its result and nothing else (rule R148). -/
theorem exec_stuff (data : Bytes) (s : State) : exec (.stuff data) s = .next (s.respond (.ok (stuff data))) :=
  rfl

/-- Settles O9: the recursion of `stuff` is the map of each byte by itself. -/
theorem stuffAnswers : Obligations.StuffAnswers := by
  refine ⟨?operation, rfl, stuff_replicate_stx, by decide⟩
  case operation =>
    intro data s
    refine ⟨rfl, rfl, ?_⟩
    rw [exec_stuff, stuff_eq_flatMap]
    rfl

/-- Settles O7: the answer is `crc16` by definition, and no run over zero bytes reaches 0 because the seed is not 0. -/
theorem crc16Answers : Obligations.Crc16Answers :=
  ⟨fun data s => ⟨rfl, rfl, exec_crc16 data s⟩, by decide, by decide, by decide +kernel,
    crc16Val_replicate_zero_ne_zero⟩

end Sys2Proof.Machine
end

section
/-! PROOF. The Frame Decoder inverts the stuffer: a stuffed byte is one append, the beginning of a frame is complete only
when it is the frame, and so a wire packet from IDLE is one hand-off (spec/41_frame_decoder.md). -/

namespace Sys2Proof.Machine

/-! ### One byte, arm by arm (rule R161) -/

@[simp] theorem State.setRx_setRx (r r' : RxState) (buf buf' : Bytes) (s : State) :
    (s.setRx r buf).setRx r' buf' = s.setRx r' buf' :=
  rfl

theorem rxByte_idle_stx {s : State} (h : s.rxs = .idle) : rxByte stx s = s.setRx .inFrame [stx] := by
  simp [rxByte, h]

theorem rxByte_inFrame_stx {buf : Bytes} (h : buf.length ≠ 1) (s : State) :
    rxByte stx (s.setRx .inFrame buf) = s.setRx .awaitStuff buf := by
  simp [rxByte, h]

theorem rxByte_inFrame_data {b : Byte} (h : b ≠ stx) (buf : Bytes) (s : State) :
    rxByte b (s.setRx .inFrame buf) = appendByte b (s.setRx .inFrame buf) := by
  simp [rxByte, h]

theorem rxByte_awaitStuff_stx (buf : Bytes) (s : State) :
    rxByte stx (s.setRx .awaitStuff buf) = appendByte stx (s.setRx .inFrame buf) := by
  rw [rxByte]
  exact if_pos rfl

/-- The byte that completes the frame empties the decoder and hands the frame over (rule R168). -/
theorem appendByte_complete {b : Byte} {buf : Bytes} (h : frameComplete (buf ++ [b]) = true) (r : RxState) (s : State) :
    appendByte b (s.setRx r buf) = frameIn (buf ++ [b]) (s.setRx .idle []) := by
  simp [appendByte, handOff, h]

theorem appendByte_incomplete {b : Byte} {buf : Bytes} (h : ¬ frameComplete (buf ++ [b]) = true) (r : RxState)
    (s : State) : appendByte b (s.setRx r buf) = s.setRx .inFrame (buf ++ [b]) := by
  simp [appendByte, h]

/-! ### A stuffed byte, a stuffed frame -/

/-- A byte goes over the line as itself or as a pair, and either way the decoder appends it once; only a 0x7F that
follows a lone marker would be read otherwise (rules R145, R163 to R166). -/
theorem rxChunk_stuff_cons {b : Byte} {buf : Bytes} (h : b = stx → buf.length ≠ 1) (bs : Bytes) (s : State) :
    rxChunk (stuff (b :: bs)) (s.setRx .inFrame buf) = rxChunk (stuff bs) (appendByte b (s.setRx .inFrame buf)) := by
  rw [stuff]
  split
  next hb => rw [rxChunk_cons, rxChunk_cons, rxByte_inFrame_stx (h hb), rxByte_awaitStuff_stx, hb]
  next hb => rw [rxChunk_cons, rxByte_inFrame_data hb]

/-- Of the beginnings of a frame whose LENGTH byte is right, only the whole of it is complete (rule R168). -/
theorem frameComplete_iff_whole {p r : Bytes} (hlen : (p ++ r).length = (byteAt (p ++ r) 1).toNat + 4) :
    frameComplete (stx :: p) = true ↔ r = [] := by
  have hrest : r = [] ↔ (p ++ r).length = p.length := by simp
  rw [hrest]
  by_cases hp : 2 ≤ p.length
  · have hbyte : byteAt (stx :: p) 2 = byteAt (p ++ r) 1 := by
      simp [byteAt, List.getElem?_append_left hp]
    simp only [frameComplete, hbyte, List.length_cons, Bool.and_eq_true, decide_eq_true_eq, beq_iff_eq]
    omega
  · have hshort : ¬ 3 ≤ (stx :: p).length := by simpa using hp
    simp only [frameComplete, hshort, decide_false, Bool.false_and, Bool.false_eq_true, false_iff]
    omega

/-- With the beginning `p` of the frame buffered, the rest of it, stuffed, hands over the whole (rules R165 to R168). -/
theorem rxChunk_stuff_rest {p r : Bytes} (hr : r ≠ []) (hfirst : p = [] → byteAt r 0 ≠ stx)
    (hlen : (p ++ r).length = (byteAt (p ++ r) 1).toNat + 4) (s : State) :
    rxChunk (stuff r) (s.setRx .inFrame (stx :: p)) = frameIn (stx :: (p ++ r)) (s.setRx .idle []) := by
  induction r generalizing p with
  | nil => exact absurd rfl hr
  | cons b r ih =>
    have hnotLone : b = stx → (stx :: p).length ≠ 1 := by
      rintro rfl hlone
      exact hfirst (List.eq_nil_of_length_eq_zero (Nat.succ.inj hlone)) rfl
    have hmove : p ++ b :: r = (p ++ [b]) ++ r := List.append_cons p b r
    rw [hmove] at hlen ⊢
    have hcomplete : frameComplete (stx :: p ++ [b]) = true ↔ r = [] := frameComplete_iff_whole hlen
    rw [rxChunk_stuff_cons hnotLone]
    by_cases hlast : r = []
    · rw [appendByte_complete (hcomplete.mpr hlast), hlast, List.append_nil]
      rfl
    · rw [appendByte_incomplete (mt hcomplete.mp hlast)]
      exact ih hlast (by simp) hlen

/-- Rule R173 for the packet in one piece. -/
theorem rxChunk_wire {s : State} {x : Bytes} (hidle : s.rxs = .idle) (hempty : s.rxBuf = [])
    (hlen : x.length = (byteAt x 1).toNat + 4) (hseq : byteAt x 0 ≠ stx) :
    rxChunk (stx :: stuff x) s = frameIn (stx :: x) s := by
  have hx : x ≠ [] := by
    rintro rfl
    simp at hlen
  have hsame : s.setRx .idle [] = s := by rw [← hidle, ← hempty]; rfl
  rw [rxChunk_cons, rxByte_idle_stx hidle, rxChunk_stuff_rest (p := []) hx (fun _ => hseq) hlen, List.nil_append, hsame]

/-! ### Chunks, and the decoder under FRAME_IN -/

/-- How the line cuts the stream does not matter (rule R170). -/
theorem chunks_eq_rxChunk_flatten (cs : List Bytes) (s : State) : chunks cs s = rxChunk cs.flatten s := by
  induction cs generalizing s with
  | nil => rfl
  | cons c cs ih =>
    rw [List.flatten_cons, rxChunk_append, ← ih]
    rfl

theorem failAttempt_rx (c : Status) (s : State) :
    (failAttempt c s).rxs = s.rxs ∧ (failAttempt c s).rxBuf = s.rxBuf := by
  by_cases h : s.attempt < s.cfg.commandRetries.val
  · simp [failAttempt_retry c s h]
  · simp [failAttempt_final c s (Nat.le_of_not_lt h)]

/-- FRAME_IN writes no decoder register (rule R255). -/
theorem frameIn_rx (f : Bytes) (s : State) : (frameIn f s).rxs = s.rxs ∧ (frameIn f s).rxBuf = s.rxBuf := by
  rcases frameIn_cases f s with ⟨-, h⟩ | ⟨c, -, -, h⟩ | ⟨p, -, -, -, -, h⟩ <;> rw [h]
  · exact ⟨rfl, rfl⟩
  · exact failAttempt_rx c s
  · rw [completeCommand_eq]
    split <;> simp

/-- A frame under assembly that ends in a single marker (rule R174 (c)). -/
def pendingMarker : State :=
  State.reset.setRx .awaitStuff [0x7F, 0x80]

/-- Settles O23: one piece by induction on what the frame still lacks, any chunking by joining the chunks; after a
pending marker the packet's own STX is read as data, and the rest of the packet with it. -/
theorem wirePacketIsFramed : Obligations.WirePacketIsFramed := by
  refine ⟨?fromIdle, pendingMarker, [0x80, 0x00, 0x01, 0x02], ?counterexample⟩
  case fromIdle =>
    intro s x cs hidle hempty _ hlen hseq hcs
    have hchunks : chunks cs s = frameIn (0x7F :: x) s := by
      rw [chunks_eq_rxChunk_flatten, hcs]
      exact rxChunk_wire hidle hempty hlen hseq
    obtain ⟨hrxs, hbuf⟩ := frameIn_rx (0x7F :: x) s
    rw [hchunks]
    exact ⟨rfl, hrxs.trans hidle, hbuf.trans hempty⟩
  case counterexample => decide +kernel

end Sys2Proof.Machine
end

section
/-! PROOF. The AES-128-ECB unit is its own inverse (spec/42_aes.md, rule R200).  Each step of a round has an inverse on
16-byte blocks; the two ciphers then cancel round by round, and ECB cancels block by block. -/

namespace Sys2Proof.Machine

/-! ### XOR with a round key -/

theorem length_xorBytes {s k : Bytes} (h : s.length = k.length) : (xorBytes s k).length = k.length := by
  simp [xorBytes, h]

/-- The same key twice is no key. -/
theorem xorBytes_xorBytes {s k : Bytes} (h : s.length = k.length) : xorBytes (xorBytes s k) k = s := by
  refine List.ext_getElem ?_ fun i _ _ => ?_
  · rw [length_xorBytes (length_xorBytes h), h]
  · simp [xorBytes]

/-! ### SubBytes: the two tables -/

theorem invSbox_sbox (x : Byte) : invSbox (sbox x) = x := by
  revert x
  decide +kernel

theorem sbox_invSbox (x : Byte) : sbox (invSbox x) = x := by
  revert x
  decide +kernel

@[simp] theorem length_subBytes (s : Bytes) : (subBytes s).length = s.length :=
  List.length_map ..

@[simp] theorem length_invSubBytes (s : Bytes) : (invSubBytes s).length = s.length :=
  List.length_map ..

@[simp] theorem invSubBytes_subBytes (s : Bytes) : invSubBytes (subBytes s) = s := by
  simp [invSubBytes, subBytes, Function.comp_def, invSbox_sbox]

@[simp] theorem subBytes_invSubBytes (s : Bytes) : subBytes (invSubBytes s) = s := by
  simp [invSubBytes, subBytes, Function.comp_def, sbox_invSbox]

/-! ### ShiftRows: a permutation of the 16 places -/

/-- The bytes of `s` at the places `p`: what both ShiftRows do. -/
def permute (p : Nat → Nat) (s : Bytes) : Bytes :=
  (List.range 16).map fun i => byteAt s (p i)

/-- Two permutations of the places cancel when one sends every place back where the other took it from. -/
theorem permute_permute {p q : Nat → Nat} (hq : ∀ i < 16, q i < 16) (hpq : ∀ i < 16, p (q i) = i) {s : Bytes}
    (hs : s.length = 16) : permute q (permute p s) = s := by
  refine List.ext_getElem (by simp [permute, hs]) fun i hi _ => ?_
  have hi' : i < 16 := by simpa [permute] using hi
  simp [permute, byteAt, hq i hi', hpq i hi', hs, hi']

@[simp] theorem length_shiftRows (s : Bytes) : (shiftRows s).length = 16 := by
  simp [shiftRows]

@[simp] theorem length_invShiftRows (s : Bytes) : (invShiftRows s).length = 16 := by
  simp [invShiftRows]

theorem invShiftRows_shiftRows {s : Bytes} (h : s.length = 16) : invShiftRows (shiftRows s) = s :=
  permute_permute (by decide) (by decide) h

theorem shiftRows_invShiftRows {s : Bytes} (h : s.length = 16) : shiftRows (invShiftRows s) = s :=
  permute_permute (by decide) (by decide) h

/-! ### MixColumns: linear, so columns with one bit set decide it -/

/-- `xtime` is the shift, and the polynomial if the top bit was set. -/
theorem xtime_eq (a : Byte) : xtime a = (a <<< 1) ^^^ (if a.getLsbD 7 then 0x1B else 0) := by
  unfold xtime
  split <;> simp

theorem xtime_xor (a b : Byte) : xtime (a ^^^ b) = xtime a ^^^ xtime b := by
  have hpoly : ∀ p q : Bool, (if (p ^^ q) = true then 0x1B else 0 : Byte) =
      (if p = true then 0x1B else 0) ^^^ (if q = true then 0x1B else 0) := by decide
  rw [xtime_eq, xtime_eq, xtime_eq, BitVec.getLsbD_xor, hpoly, BitVec.shiftLeft_xor_distrib]
  ac_rfl

theorem xtimes_xor (i : Nat) (a b : Byte) : xtimes i (a ^^^ b) = xtimes i a ^^^ xtimes i b := by
  induction i with
  | zero => rfl
  | succ i ih => rw [xtimes, ih, xtime_xor]; rfl

/-- The product's sum over the bits `is` of `b`, begun at `acc` (rule R194). -/
def mulBits (a b : Byte) (is : List Nat) (acc : Byte) : Byte :=
  is.foldl (fun acc i => if b.getLsbD i then acc ^^^ xtimes i a else acc) acc

theorem gmul_eq_mulBits (a b : Byte) : gmul a b = mulBits a b (List.range 8) 0 :=
  rfl

theorem mulBits_cons (a b : Byte) (i : Nat) (is : List Nat) (acc : Byte) :
    mulBits a b (i :: is) acc = mulBits a b is (if b.getLsbD i then acc ^^^ xtimes i a else acc) :=
  rfl

theorem mulBits_xor (a b c : Byte) (is : List Nat) (u v : Byte) :
    mulBits (a ^^^ b) c is (u ^^^ v) = mulBits a c is u ^^^ mulBits b c is v := by
  induction is generalizing u v with
  | nil => rfl
  | cons i is ih =>
    rw [mulBits_cons, mulBits_cons, mulBits_cons, ← ih]
    congr 1
    split
    · rw [xtimes_xor]
      ac_rfl
    · rfl

/-- Multiplication by a constant is linear (rule R194). -/
theorem gmul_xor (a b c : Byte) : gmul (a ^^^ b) c = gmul a c ^^^ gmul b c :=
  mulBits_xor a b c (List.range 8) 0 0

theorem one_gmul (a : Byte) : gmul 1 a = a := by
  revert a
  decide +kernel

/-- What holds of the eight powers of x and is kept by XOR holds of every byte. -/
theorem byte_xor_induction {P : Byte → Prop} (hpow : ∀ i ∈ List.range 8, P (xtimes i 1))
    (hxor : ∀ a b, P a → P b → P (a ^^^ b)) (a : Byte) : P a := by
  have hzero : P 0 := hxor 1 1 (hpow 0 (by decide)) (hpow 0 (by decide))
  rw [← one_gmul a, gmul_eq_mulBits]
  refine List.foldlRecOn _ _ hzero fun acc hacc i hi => ?_
  split
  · exact hxor _ _ hacc (hpow i hi)
  · exact hacc

/-- A column to a column, linear over XOR. -/
structure LinearColumn (f : Byte → Byte → Byte → Byte → Bytes) : Prop where
  length : ∀ a0 a1 a2 a3, (f a0 a1 a2 a3).length = 4
  xor : ∀ a0 a1 a2 a3 b0 b1 b2 b3,
    f (a0 ^^^ b0) (a1 ^^^ b1) (a2 ^^^ b2) (a3 ^^^ b3) = xorBytes (f a0 a1 a2 a3) (f b0 b1 b2 b3)

theorem linearColumn_mixColumn : LinearColumn mixColumn where
  length _ _ _ _ := rfl
  xor a0 a1 a2 a3 b0 b1 b2 b3 := by
    simp only [mixColumn, gmul_xor, xorBytes, List.zipWith_cons_cons, List.zipWith_nil_left]
    ac_rfl

theorem linearColumn_invMixColumn : LinearColumn invMixColumn where
  length _ _ _ _ := rfl
  xor a0 a1 a2 a3 b0 b1 b2 b3 := by
    simp only [invMixColumn, gmul_xor, xorBytes, List.zipWith_cons_cons, List.zipWith_nil_left]
    ac_rfl

section
variable {f g : Byte → Byte → Byte → Byte → Bytes}

theorem mapColumns_append_column {col : Bytes} (h : col.length = 4) (rest : Bytes) :
    mapColumns f (col ++ rest) = mapColumns f col ++ mapColumns f rest := by
  match col, h with
  | [a0, a1, a2, a3], _ => simp [mapColumns]

/-- Induction on a string of whole columns. -/
theorem columns_induction {motive : Bytes → Prop} (nil : motive [])
    (column : ∀ a0 a1 a2 a3 rest, motive rest → motive (a0 :: a1 :: a2 :: a3 :: rest)) (n : Nat) :
    ∀ s : Bytes, s.length = 4 * n → motive s := by
  induction n with
  | zero => exact fun s hs => List.eq_nil_of_length_eq_zero hs ▸ nil
  | succ n ih =>
    intro s hs
    match s, hs with
    | a0 :: a1 :: a2 :: a3 :: rest, hs => exact column _ _ _ _ _ (ih rest (by simpa [Nat.mul_succ] using hs))

theorem length_mapColumns (hf : LinearColumn f) (n : Nat) {s : Bytes} (hs : s.length = 4 * n) :
    (mapColumns f s).length = s.length := by
  refine columns_induction (motive := fun s => (mapColumns f s).length = s.length) rfl ?_ n s hs
  intro a0 a1 a2 a3 rest ih
  rw [mapColumns, List.length_append, hf.length, ih]
  exact Nat.add_comm 4 rest.length

theorem mapColumns_xorBytes_column (hg : LinearColumn g) {u v : Bytes} (hu : u.length = 4) (hv : v.length = 4) :
    mapColumns g (xorBytes u v) = xorBytes (mapColumns g u) (mapColumns g v) := by
  match u, v, hu, hv with
  | [a0, a1, a2, a3], [b0, b1, b2, b3], _, _ => simp [mapColumns, xorBytes, hg.xor]

/-- `g` undoes `f` on this column. -/
def ColumnUndone (f g : Byte → Byte → Byte → Byte → Bytes) (a0 a1 a2 a3 : Byte) : Prop :=
  mapColumns g (f a0 a1 a2 a3) = [a0, a1, a2, a3]

theorem ColumnUndone.xor (hf : LinearColumn f) (hg : LinearColumn g) {a0 a1 a2 a3 b0 b1 b2 b3 : Byte}
    (ha : ColumnUndone f g a0 a1 a2 a3) (hb : ColumnUndone f g b0 b1 b2 b3) :
    ColumnUndone f g (a0 ^^^ b0) (a1 ^^^ b1) (a2 ^^^ b2) (a3 ^^^ b3) := by
  rw [ColumnUndone, hf.xor, mapColumns_xorBytes_column hg (hf.length ..) (hf.length ..), ha, hb]
  rfl

/-- `g` undoes `f` on the four columns in which `a` is the only byte. -/
def SinglesUndone (f g : Byte → Byte → Byte → Byte → Bytes) (a : Byte) : Prop :=
  ColumnUndone f g a 0 0 0 ∧ ColumnUndone f g 0 a 0 0 ∧ ColumnUndone f g 0 0 a 0 ∧ ColumnUndone f g 0 0 0 a

theorem SinglesUndone.xor (hf : LinearColumn f) (hg : LinearColumn g) {a b : Byte} (ha : SinglesUndone f g a)
    (hb : SinglesUndone f g b) : SinglesUndone f g (a ^^^ b) := by
  obtain ⟨a0, a1, a2, a3⟩ := ha
  obtain ⟨b0, b1, b2, b3⟩ := hb
  exact ⟨a0.xor hf hg b0, a1.xor hf hg b1, a2.xor hf hg b2, a3.xor hf hg b3⟩

/-- Every column is an XOR of columns whose only byte is a power of x. -/
theorem columnUndone_of_powers (hf : LinearColumn f) (hg : LinearColumn g)
    (hpow : ∀ i ∈ List.range 8, SinglesUndone f g (xtimes i 1)) (a0 a1 a2 a3 : Byte) :
    ColumnUndone f g a0 a1 a2 a3 := by
  have hsingle : ∀ a, SinglesUndone f g a := byte_xor_induction hpow fun _ _ => SinglesUndone.xor hf hg
  obtain ⟨h0, -, -, -⟩ := hsingle a0
  obtain ⟨-, h1, -, -⟩ := hsingle a1
  obtain ⟨-, -, h2, -⟩ := hsingle a2
  obtain ⟨-, -, -, h3⟩ := hsingle a3
  simpa using ((h0.xor hf hg h1).xor hf hg h2).xor hf hg h3

theorem mapColumns_mapColumns (hf : LinearColumn f) (h : ∀ a0 a1 a2 a3, ColumnUndone f g a0 a1 a2 a3) (n : Nat)
    {s : Bytes} (hs : s.length = 4 * n) : mapColumns g (mapColumns f s) = s := by
  refine columns_induction (motive := fun s => mapColumns g (mapColumns f s) = s) rfl ?_ n s hs
  intro a0 a1 a2 a3 rest ih
  rw [mapColumns, mapColumns_append_column (hf.length ..), h, ih]
  rfl

end

theorem columnUndone_mixColumn (a0 a1 a2 a3 : Byte) : ColumnUndone mixColumn invMixColumn a0 a1 a2 a3 := by
  refine columnUndone_of_powers linearColumn_mixColumn linearColumn_invMixColumn ?_ ..
  unfold SinglesUndone ColumnUndone
  decide +kernel

theorem columnUndone_invMixColumn (a0 a1 a2 a3 : Byte) : ColumnUndone invMixColumn mixColumn a0 a1 a2 a3 := by
  refine columnUndone_of_powers linearColumn_invMixColumn linearColumn_mixColumn ?_ ..
  unfold SinglesUndone ColumnUndone
  decide +kernel

theorem length_mixColumns {s : Bytes} (h : s.length = 16) : (mixColumns s).length = 16 :=
  (length_mapColumns linearColumn_mixColumn 4 h).trans h

theorem length_invMixColumns {s : Bytes} (h : s.length = 16) : (invMixColumns s).length = 16 :=
  (length_mapColumns linearColumn_invMixColumn 4 h).trans h

theorem invMixColumns_mixColumns {s : Bytes} (h : s.length = 16) : invMixColumns (mixColumns s) = s :=
  mapColumns_mapColumns linearColumn_mixColumn columnUndone_mixColumn 4 h

theorem mixColumns_invMixColumns {s : Bytes} (h : s.length = 16) : mixColumns (invMixColumns s) = s :=
  mapColumns_mapColumns linearColumn_invMixColumn columnUndone_invMixColumn 4 h

/-! ### KeyExpansion: eleven keys of 16 bytes -/

/-- What `Cipher` and `InvCipher` need of the round keys. -/
structure RoundKeys (rk : List Bytes) : Prop where
  count : rk.length = 11
  length_of_mem : ∀ k ∈ rk, k.length = 16

theorem length_slice {s : Bytes} {i j : Nat} (h : j ≤ s.length) : (slice s i j).length = j - i := by
  rw [slice, List.length_take, List.length_drop]
  omega

theorem length_nextRoundKey (j : Nat) {rk : Bytes} (h : rk.length = 16) : (nextRoundKey j rk).length = 16 := by
  simp [nextRoundKey, xorBytes, length_slice, h, keyCore]

theorem length_roundKey {key : Bytes} (h : key.length = 16) (j : Nat) : (roundKey key j).length = 16 := by
  induction j with
  | zero => exact h
  | succ j ih => exact length_nextRoundKey (j + 1) ih

theorem roundKeys_keyExpansion {key : Bytes} (h : key.length = 16) : RoundKeys (keyExpansion key) := by
  refine ⟨by simp [keyExpansion], List.forall_mem_map.mpr fun j _ => ?_⟩
  exact length_roundKey h j

section
variable {rk : List Bytes}

theorem RoundKeys.length_getD (h : RoundKeys rk) {i : Nat} (hi : i < 11) : (rk.getD i []).length = 16 := by
  have hi' : i < rk.length := h.count ▸ hi
  rw [List.getD_eq_getElem _ _ hi']
  exact h.length_of_mem _ (List.getElem_mem hi')

/-- The round keys 1 to 9, those of the rounds with MixColumns. -/
def middleKeys (rk : List Bytes) : List Bytes :=
  (rk.drop 1).take 9

theorem RoundKeys.length_of_mem_middleKeys (h : RoundKeys rk) : ∀ k ∈ middleKeys rk, k.length = 16 :=
  fun k hk => h.length_of_mem k (List.mem_of_mem_drop (List.mem_of_mem_take hk))

end

/-! ### The two ciphers cancel round by round -/

/-- The steps without a key that every round of `Cipher` begins with. -/
def substShift (s : Bytes) : Bytes :=
  shiftRows (subBytes s)

/-- The steps without a key that every round of `InvCipher` begins with. -/
def invSubstShift (s : Bytes) : Bytes :=
  invSubBytes (invShiftRows s)

@[simp] theorem length_substShift (s : Bytes) : (substShift s).length = 16 := by
  simp [substShift]

@[simp] theorem length_invSubstShift (s : Bytes) : (invSubstShift s).length = 16 := by
  simp [invSubstShift]

theorem invSubstShift_substShift {s : Bytes} (h : s.length = 16) : invSubstShift (substShift s) = s := by
  rw [invSubstShift, substShift, invShiftRows_shiftRows (by simp [h]), invSubBytes_subBytes]

theorem substShift_invSubstShift {s : Bytes} (h : s.length = 16) : substShift (invSubstShift s) = s := by
  rw [substShift, invSubstShift, subBytes_invSubBytes, shiftRows_invShiftRows h]

theorem cipherRound_eq (s k : Bytes) : cipherRound s k = xorBytes (mixColumns (substShift s)) k :=
  rfl

theorem invCipherRound_eq (s k : Bytes) : invCipherRound s k = invMixColumns (xorBytes (invSubstShift s) k) :=
  rfl

theorem cipher_eq (rk : List Bytes) (b : Bytes) : cipher rk b =
    xorBytes (substShift ((middleKeys rk).foldl cipherRound (xorBytes b (rk.getD 0 [])))) (rk.getD 10 []) :=
  rfl

theorem invCipher_eq (rk : List Bytes) (b : Bytes) : invCipher rk b =
    xorBytes (invSubstShift ((middleKeys rk).reverse.foldl invCipherRound (xorBytes b (rk.getD 10 []))))
      (rk.getD 0 []) :=
  rfl

section
variable {k : Bytes} (hk : k.length = 16)
include hk

theorem length_cipherRound (s : Bytes) : (cipherRound s k).length = 16 := by
  rw [cipherRound_eq, length_xorBytes (by rw [length_mixColumns (by simp), hk]), hk]

theorem length_invCipherRound (s : Bytes) : (invCipherRound s k).length = 16 := by
  rw [invCipherRound_eq, length_invMixColumns (by rw [length_xorBytes (by simp [hk]), hk])]

/-- A round undone, one step of `InvCipher` out of phase: what is left is the round's own beginning. -/
theorem invCipherRound_substShift_cipherRound (s : Bytes) :
    invCipherRound (substShift (cipherRound s k)) k = substShift s := by
  rw [invCipherRound_eq, invSubstShift_substShift (length_cipherRound hk s), cipherRound_eq,
    xorBytes_xorBytes (by rw [length_mixColumns (by simp), hk]), invMixColumns_mixColumns (by simp)]

theorem cipherRound_invSubstShift_invCipherRound (s : Bytes) :
    cipherRound (invSubstShift (invCipherRound s k)) k = invSubstShift s := by
  have hxor : (xorBytes (invSubstShift s) k).length = 16 := by rw [length_xorBytes (by simp [hk]), hk]
  rw [cipherRound_eq, substShift_invSubstShift (length_invCipherRound hk s), invCipherRound_eq,
    mixColumns_invMixColumns hxor, xorBytes_xorBytes (by simp [hk])]

end

section
variable {ks : List Bytes} (hks : ∀ k ∈ ks, k.length = 16)
include hks

/-- The rounds of `InvCipher`, in reverse order, undo those of `Cipher`. -/
theorem foldl_invCipherRound_reverse_foldl_cipherRound (s : Bytes) :
    ks.reverse.foldl invCipherRound (substShift (ks.foldl cipherRound s)) = substShift s := by
  induction ks generalizing s with
  | nil => rfl
  | cons k ks ih =>
    obtain ⟨hk, hks⟩ := List.forall_mem_cons.mp hks
    rw [List.foldl_cons, List.reverse_cons, List.foldl_append, ih hks]
    exact invCipherRound_substShift_cipherRound hk s

theorem foldl_cipherRound_foldl_invCipherRound_reverse (s : Bytes) :
    ks.foldl cipherRound (invSubstShift (ks.reverse.foldl invCipherRound s)) = invSubstShift s := by
  induction ks generalizing s with
  | nil => rfl
  | cons k ks ih =>
    obtain ⟨hk, hks⟩ := List.forall_mem_cons.mp hks
    rw [List.reverse_cons, List.foldl_append, List.foldl_cons, List.foldl_cons, List.foldl_nil,
      cipherRound_invSubstShift_invCipherRound hk, ih hks]

end

section
variable {rk : List Bytes} (hrk : RoundKeys rk)
include hrk

theorem length_cipher (b : Bytes) : (cipher rk b).length = 16 := by
  have h10 := hrk.length_getD (i := 10) (by decide)
  rw [cipher_eq, length_xorBytes (by rw [length_substShift, h10]), h10]

theorem length_invCipher (b : Bytes) : (invCipher rk b).length = 16 := by
  have h0 := hrk.length_getD (i := 0) (by decide)
  rw [invCipher_eq, length_xorBytes (by rw [length_invSubstShift, h0]), h0]

theorem invCipher_cipher {b : Bytes} (hb : b.length = 16) : invCipher rk (cipher rk b) = b := by
  have h0 := hrk.length_getD (i := 0) (by decide)
  have h10 := hrk.length_getD (i := 10) (by decide)
  rw [invCipher_eq, cipher_eq, xorBytes_xorBytes (by rw [length_substShift, h10]),
    foldl_invCipherRound_reverse_foldl_cipherRound hrk.length_of_mem_middleKeys,
    invSubstShift_substShift (by rw [length_xorBytes (by rw [hb, h0]), h0]), xorBytes_xorBytes (by rw [hb, h0])]

theorem cipher_invCipher {b : Bytes} (hb : b.length = 16) : cipher rk (invCipher rk b) = b := by
  have h0 := hrk.length_getD (i := 0) (by decide)
  have h10 := hrk.length_getD (i := 10) (by decide)
  rw [cipher_eq, invCipher_eq, xorBytes_xorBytes (by rw [length_invSubstShift, h0]),
    foldl_cipherRound_foldl_invCipherRound_reverse hrk.length_of_mem_middleKeys,
    substShift_invSubstShift (by rw [length_xorBytes (by rw [hb, h10]), h10]), xorBytes_xorBytes (by rw [hb, h10])]

end

/-! ### ECB: block by block -/

section
variable {f g : Bytes → Bytes}

theorem mapBlocks_append (m : Nat) (d2 : Bytes) {n : Nat} {d1 : Bytes} (h : d1.length = 16 * n) :
    mapBlocks f (n + m) (d1 ++ d2) = mapBlocks f n d1 ++ mapBlocks f m d2 := by
  induction n generalizing d1 with
  | zero => simp [List.eq_nil_of_length_eq_zero h, mapBlocks]
  | succ n ih =>
    have hblock : 16 ≤ d1.length := by omega
    have hrest : (d1.drop 16).length = 16 * n := by rw [List.length_drop]; omega
    rw [Nat.succ_add, mapBlocks, mapBlocks, List.take_append_of_le_length hblock, List.drop_append_of_le_length hblock,
      ih hrest, List.append_assoc]

theorem length_mapBlocks (hf : ∀ b, (f b).length = 16) (n : Nat) (d : Bytes) : (mapBlocks f n d).length = 16 * n := by
  induction n generalizing d with
  | zero => rfl
  | succ n ih => rw [mapBlocks, List.length_append, hf, ih, Nat.mul_succ, Nat.add_comm]

theorem mapBlocks_mapBlocks (hf : ∀ b, (f b).length = 16) (hgf : ∀ b : Bytes, b.length = 16 → g (f b) = b)
    {n : Nat} {d : Bytes} (h : d.length = 16 * n) : mapBlocks g n (mapBlocks f n d) = d := by
  induction n generalizing d with
  | zero => simp [List.eq_nil_of_length_eq_zero h, mapBlocks]
  | succ n ih =>
    have hblock : (d.take 16).length = 16 := by rw [List.length_take]; omega
    have hrest : (d.drop 16).length = 16 * n := by rw [List.length_drop]; omega
    rw [mapBlocks, mapBlocks, List.take_left' (hf _), List.drop_left' (hf _), hgf _ hblock, ih hrest,
      List.take_append_drop]

/-- The operation answers whole blocks with `f` on each of them (rule R192). -/
def EcbOf (f : Bytes → Bytes) (op : Bytes → Except Status Bytes) : Prop :=
  ∀ (n : Nat) (d : Bytes), d.length = 16 * n → op d = .ok (mapBlocks f n d)

theorem ecbOf_aesEncrypt {key : Bytes} (h : key.length = 16) : EcbOf (cipher (keyExpansion key)) (aesEncrypt key) := by
  intro n d hd
  simp [aesEncrypt, h, hd]

theorem ecbOf_aesDecrypt {key : Bytes} (h : key.length = 16) :
    EcbOf (invCipher (keyExpansion key)) (aesDecrypt key) := by
  intro n d hd
  simp [aesDecrypt, h, hd]

variable {op undo : Bytes → Except Status Bytes}

/-- Rules R200 (a) and (d), from the same for one block. -/
theorem EcbOf.undo_op (hop : EcbOf f op) (hundo : EcbOf g undo) (hf : ∀ b, (f b).length = 16)
    (hgf : ∀ b : Bytes, b.length = 16 → g (f b) = b) {d : Bytes} (hd : d.length % 16 = 0) :
    ∃ c, op d = .ok c ∧ undo c = .ok d ∧ c.length = d.length := by
  obtain ⟨n, hn⟩ := Nat.dvd_of_mod_eq_zero hd
  have hlen := length_mapBlocks hf n d
  refine ⟨_, hop n d hn, ?_, hlen.trans hn.symm⟩
  rw [hundo n _ hlen, mapBlocks_mapBlocks hf hgf hn]

/-- Rule R200 (b). -/
theorem EcbOf.append (hop : EcbOf f op) {d1 d2 c1 c2 : Bytes} (h1 : d1.length % 16 = 0) (h2 : d2.length % 16 = 0)
    (e1 : op d1 = .ok c1) (e2 : op d2 = .ok c2) : op (d1 ++ d2) = .ok (c1 ++ c2) := by
  obtain ⟨n, hn⟩ := Nat.dvd_of_mod_eq_zero h1
  obtain ⟨m, hm⟩ := Nat.dvd_of_mod_eq_zero h2
  have hc1 : mapBlocks f n d1 = c1 := Except.ok.inj ((hop n d1 hn).symm.trans e1)
  have hc2 : mapBlocks f m d2 = c2 := Except.ok.inj ((hop m d2 hm).symm.trans e2)
  have hlen : (d1 ++ d2).length = 16 * (n + m) := by rw [List.length_append, hn, hm, Nat.mul_add]
  rw [hop _ _ hlen, mapBlocks_append m d2 hn, hc1, hc2]

end

/-- Settles O12: (a) and (d) because the ciphers are inverse on one block, (b) because both operations are ECB, (c) with
`InvCipher` as the inverse permutation. -/
theorem aesDecryptInvertsEncrypt : Obligations.AesDecryptInvertsEncrypt := by
  intro key hkey
  have hrk := roundKeys_keyExpansion hkey
  have henc := ecbOf_aesEncrypt hkey
  have hdec := ecbOf_aesDecrypt hkey
  refine ⟨?inverse, ?parts, ?permutation⟩
  case inverse =>
    intro data hdata
    obtain ⟨p, hp, hback, -⟩ := hdec.undo_op henc (length_invCipher hrk) (fun _ => cipher_invCipher hrk) hdata
    exact ⟨henc.undo_op hdec (length_cipher hrk) (fun _ => invCipher_cipher hrk) hdata, p, hp, hback⟩
  case parts => exact fun _ _ _ _ h1 h2 => ⟨henc.append h1 h2, hdec.append h1 h2⟩
  case permutation =>
    intro b hb
    have hinv := cipher_invCipher hrk hb
    refine ⟨length_cipher hrk b, invCipher (keyExpansion key) b, length_invCipher hrk b, hinv, ?unique⟩
    case unique =>
      rintro a' ha' rfl
      exact (invCipher_cipher hrk ha').symm

end Sys2Proof.Machine
end

section
/-! PROOF. EXTRACT inverts BUILD (spec/43_packet_codec.md, rule R235).  A frame with the body of a packet passes the
tests and gives its DATA; an envelope's inner plaintext gives its fields; AES gives back the plaintext (rule R200), so the
counter alone decides. -/

namespace Sys2Proof.Machine

/-! ### Slices -/

/-- The part `b` between a front of `i` bytes and the rest (rule R15). -/
theorem slice_middle {a b : Bytes} {i j : Nat} (c : Bytes) (hi : a.length = i) (hj : j = i + b.length) :
    slice (a ++ (b ++ c)) i j = b := by
  rw [slice, List.drop_left' hi, List.take_left' (by omega)]

theorem toNat_ofNat_eight {n : Nat} (h : n ≤ 255) : (BitVec.ofNat 8 n).toNat = n := by
  rw [BitVec.toNat_ofNat, Nat.mod_eq_of_lt (by omega)]

/-! ### The frame of a packet -/

@[simp] theorem length_crc16 (s : Bytes) : (crc16 s).length = 2 :=
  rfl

/-- What the CRC of a packet covers: sequence byte, LENGTH, DATA (rule R116). -/
def packetCore (sb : Byte) (data : Bytes) : Bytes :=
  [sb, BitVec.ofNat 8 data.length] ++ data

theorem packetBody_eq (sb : Byte) (data : Bytes) :
    packetBody sb data = packetCore sb data ++ crc16 (packetCore sb data) :=
  rfl

@[simp] theorem length_packetCore (sb : Byte) (data : Bytes) : (packetCore sb data).length = data.length + 2 :=
  rfl

theorem byteAt_packetBody_zero (sb : Byte) (data : Bytes) : byteAt (packetBody sb data) 0 = sb :=
  rfl

theorem byteAt_packetBody_one (sb : Byte) (data : Bytes) :
    byteAt (packetBody sb data) 1 = BitVec.ofNat 8 data.length :=
  rfl

section
variable {data : Bytes} (hdata : data.length ≤ 255) (sb : Byte)
include hdata

theorem packetBody_length_eq_lengthByte : (packetBody sb data).length = (byteAt (packetBody sb data) 1).toNat + 4 := by
  rw [packetBody_length, byteAt_packetBody_one, toNat_ofNat_eight hdata]

/-- The tests of EXTRACT pass on the frame of a packet, and it gives the packet's DATA (rules R116, R230, R231). -/
theorem checkFrame_packetBody : checkFrame (stx :: packetBody sb data) = .ok data := by
  have hlength : (stx :: packetBody sb data).length = data.length + 5 := by
    rw [List.length_cons, packetBody_length]
  have hlen : (byteAt (stx :: packetBody sb data) 2).toNat = data.length := toNat_ofNat_eight hdata
  have hcore : slice (stx :: packetBody sb data) 1 (3 + data.length) = packetCore sb data :=
    slice_middle (a := [stx]) (b := packetCore sb data) (crc16 (packetCore sb data)) rfl
      (by rw [length_packetCore]; omega)
  have hcrc : slice (stx :: packetBody sb data) (3 + data.length) (5 + data.length) = crc16 (packetCore sb data) := by
    have h := slice_middle (a := stx :: packetCore sb data) (b := crc16 (packetCore sb data)) (i := 3 + data.length)
      (j := 5 + data.length) [] (by rw [List.length_cons, length_packetCore]; omega) (by rw [length_crc16]; omega)
    rwa [List.append_nil] at h
  have hpayload : frameData (stx :: packetBody sb data) = data := by
    rw [frameData, hlen]
    exact slice_middle (a := [stx, sb, BitVec.ofNat 8 data.length]) (crc16 (packetCore sb data)) rfl rfl
  have hmarker : byteAt (stx :: packetBody sb data) 0 = stx := rfl
  simp [checkFrame, hlength, hlen, hcore, hcrc, hpayload, hmarker]

theorem extractPacket_packetBody_none (e : Count) : extractPacket (stx :: packetBody sb data) none e = .ok data := by
  rw [extractPacket, checkFrame_packetBody hdata]

theorem extractPacket_packetBody_some (k : Bytes) (e : Count) : extractPacket (stx :: packetBody sb data) (some k) e =
    if isEnvelope data then openEnvelope k e (data.drop 1) else .ok data := by
  rw [extractPacket, checkFrame_packetBody hdata]

/-- From IDLE, the wire packet is one frame handed to FRAME_IN (rule R173). -/
theorem exec_rxChunk_wirePacket (hsb : sb ≠ stx) {s : State} (hidle : s.rxs = .idle) (hempty : s.rxBuf = []) :
    exec (.rxChunk (wirePacket sb data)) s = exec (.frameIn (stx :: packetBody sb data)) s :=
  congrArg Host.Outcome.next (rxChunk_wire hidle hempty (packetBody_length_eq_lengthByte hdata sb) hsb)

end

/-! ### Envelopes -/

theorem isEnvelope_cons (b : Byte) (c : Bytes) : isEnvelope (b :: c) = true ↔ b = stex := by
  simp [isEnvelope]

/-- The fields of the inner plaintext, one after the other (rule R111). -/
theorem innerPlain_fields (e : Count) (payload pad : Bytes) : ∃ crc : Bytes, crc.length = 2 ∧
    innerPlain e payload pad = BitVec.ofNat 8 payload.length :: (le32 e ++ (payload ++ (pad ++ crc))) :=
  ⟨crc16 ([BitVec.ofNat 8 payload.length] ++ le32 e ++ payload ++ pad), rfl, by simp [innerPlain]⟩

theorem length_innerPlain (e : Count) (payload pad : Bytes) :
    (innerPlain e payload pad).length = payload.length + 7 + pad.length := by
  obtain ⟨crc, hcrc, h⟩ := innerPlain_fields e payload pad
  simp only [h, List.length_cons, List.length_append, le32_length, hcrc]
  omega

theorem byteAt_innerPlain_zero (e : Count) (payload pad : Bytes) :
    byteAt (innerPlain e payload pad) 0 = BitVec.ofNat 8 payload.length :=
  rfl

theorem slice_innerPlain_count (e : Count) (payload pad : Bytes) : slice (innerPlain e payload pad) 1 5 = le32 e := by
  obtain ⟨crc, -, h⟩ := innerPlain_fields e payload pad
  rw [h]
  exact slice_middle (a := [BitVec.ofNat 8 payload.length]) (b := le32 e) _ rfl rfl

theorem slice_innerPlain_payload (e : Count) (payload pad : Bytes) :
    slice (innerPlain e payload pad) 5 (5 + payload.length) = payload := by
  obtain ⟨crc, -, h⟩ := innerPlain_fields e payload pad
  rw [h]
  exact slice_middle (a := BitVec.ofNat 8 payload.length :: le32 e) _ rfl rfl

/-- The padding makes the inner plaintext whole blocks (rule R113). -/
theorem length_innerPlain_mod {payload pad : Bytes} (hpad : pad.length = padLen payload.length) (e : Count) :
    (innerPlain e payload pad).length % 16 = 0 := by
  rw [length_innerPlain, hpad, padLen]
  omega

/-- The envelope's counter matches a receiver one behind it, in 32 bits (rules R232, R235). -/
theorem slice_innerPlain_count_eq_iff (e e' : Count) (payload pad : Bytes) :
    fromLe (slice (innerPlain e payload pad) 1 5) = (e' + 1).toNat ↔ e' + 1 = e := by
  rw [slice_innerPlain_count, fromLe_le32, eq_comm, BitVec.toNat_inj]

/-- Ciphertext that decrypts to an inner plaintext opens by its counter alone (rules R232, R233). -/
theorem openEnvelope_innerPlain {k c payload pad : Bytes} {e : Count} (hpayload : payload.length ≤ 255)
    (hc : c.length ≠ 0) (hdec : aesDecrypt k c = .ok (innerPlain e payload pad)) (e' : Count) :
    openEnvelope k e' c = if e' + 1 = e then .ok payload else .error .counterMismatch := by
  rw [openEnvelope, if_neg hc, hdec]
  simp only [ne_eq, slice_innerPlain_count_eq_iff, byteAt_innerPlain_zero, toNat_ofNat_eight hpayload,
    slice_innerPlain_payload, ite_not]
  have hfits : ¬ payload.length + 7 > (innerPlain e payload pad).length := by rw [length_innerPlain]; omega
  rw [if_neg hfits]

/-! ### What BUILD puts into DATA -/

/-- The most bytes of a payload, code included (rule R224). -/
def payloadLimit : Option Bytes → Nat
  | none => 255
  | some _ => 233

/-- What BUILD accepts is within the limit (rule R224). -/
theorem length_le_payloadLimit_of_buildPadLen {reqArgs : Bool} {args : Bytes} {key : Option Bytes} {p : Nat}
    (h : buildPadLen reqArgs args key = .ok p) : args.length + 1 ≤ payloadLimit key := by
  refine Nat.le_of_not_gt fun hlong => ?_
  unfold buildPadLen at h
  split at h
  next => cases h
  next =>
    cases key with
    | none => cases h.symm.trans (if_pos hlong)
    | some k => cases h.symm.trans (if_pos hlong)

/-- BUILD without a key sends the payload as DATA (rule R220). -/
theorem buildPacket_none_ok {reqArgs : Bool} {code sb : Byte} {args pad w : Bytes} {e : Count}
    (h : buildPacket reqArgs code args sb none e pad = .ok w) :
    w = wirePacket sb (code :: args) ∧ (code :: args).length ≤ 255 := by
  obtain ⟨p, data, hp, hdata, hw⟩ := buildPacket_ok_cases h
  cases hdata
  exact ⟨hw, length_le_payloadLimit_of_buildPadLen hp⟩

/-- BUILD with a key sends an envelope: the payload is within its limit and AES_ENC answers (rules R110, R222). -/
theorem buildPacket_some_ok {reqArgs : Bool} {code sb : Byte} {args k pad w : Bytes} {e : Count}
    (h : buildPacket reqArgs code args sb (some k) e pad = .ok w) :
    ∃ c, aesEncrypt k (innerPlain e (code :: args) pad) = .ok c ∧ w = wirePacket sb (stex :: c) ∧
      (code :: args).length ≤ 233 := by
  obtain ⟨p, data, hp, hdata, hw⟩ := buildPacket_ok_cases h
  rw [buildData] at hdata
  split at hdata
  next c hc =>
    cases hdata
    exact ⟨c, hc, hw, length_le_payloadLimit_of_buildPadLen hp⟩
  next => cases hdata

/-- An envelope's ciphertext decrypts to the inner plaintext and has its length (rule R200 (a)). -/
theorem aesDecrypt_of_aesEncrypt_innerPlain {k c payload pad : Bytes} {e : Count} (hk : k.length = 16)
    (hpad : pad.length = padLen payload.length) (henc : aesEncrypt k (innerPlain e payload pad) = .ok c) :
    aesDecrypt k c = .ok (innerPlain e payload pad) ∧ c.length = payload.length + 7 + padLen payload.length := by
  obtain ⟨hinverse, -, -⟩ := aesDecryptInvertsEncrypt k hk
  obtain ⟨⟨c', henc', hdec, hlen⟩, -⟩ := hinverse _ (length_innerPlain_mod hpad e)
  obtain rfl : c = c' := Except.ok.inj (henc.symm.trans henc')
  exact ⟨hdec, by rw [hlen, length_innerPlain, hpad]⟩

/-! ### The round trip -/

/-- Settles O19: without a key DATA is the payload; with one it is an envelope whose ciphertext decrypts to the inner
plaintext.  Either way the frame passes EXTRACT's tests, and the decoder hands over the frame of any packet. -/
theorem codecRoundTrip : Obligations.CodecRoundTrip := by
  intro reqArgs code args sb key e pad w hkey hpad hsb hbuild
  cases key with
  | none =>
    obtain ⟨rfl, hdata⟩ := buildPacket_none_ok hbuild
    refine ⟨packetBody sb (code :: args), rfl, ?framed, ?plain, nofun, ?otherCode, ?envelopeCode, nofun⟩
    case framed => exact fun s => exec_rxChunk_wirePacket hdata sb hsb
    case plain => exact fun _ => extractPacket_packetBody_none hdata sb
    case otherCode =>
      intro _ hcode k' e' _
      exact (extractPacket_packetBody_some hdata sb k' e').trans (if_neg (mt (isEnvelope_cons code args).mp hcode))
    case envelopeCode =>
      intro _ hcode k' e'
      exact (extractPacket_packetBody_some hdata sb k' e').trans (if_pos ((isEnvelope_cons code args).mpr hcode))
  | some k =>
    obtain ⟨c, henc, rfl, hpayload⟩ := buildPacket_some_ok hbuild
    have hk : k.length = 16 := beq_iff_eq.mp hkey
    obtain ⟨hdec, hlen⟩ := aesDecrypt_of_aesEncrypt_innerPlain hk hpad henc
    have hdata : (stex :: c).length ≤ 255 := by
      rw [List.length_cons, hlen, padLen]
      omega
    refine ⟨packetBody sb (stex :: c), rfl, ?framed, nofun, ?opened, nofun, nofun, ?ciphertext⟩
    case framed => exact fun s => exec_rxChunk_wirePacket hdata sb hsb
    case opened =>
      rintro _ ⟨⟩ e'
      have hopen := extractPacket_packetBody_some hdata sb k e'
      rw [if_pos ((isEnvelope_cons stex c).mpr rfl)] at hopen
      exact hopen.trans (openEnvelope_innerPlain (by omega) (by omega) hdec e')
    case ciphertext =>
      rintro _ ⟨⟩
      exact ⟨c, henc, extractPacket_packetBody_none hdata sb⟩

end Sys2Proof.Machine
end

section
/-! PROOF. A silent line (spec/44_session.md, rule R268).  Every expiry but the last writes TXBUF once more and leaves the
timer armed, by induction on the expiries; the last one ends the command. -/

namespace Sys2Proof.Machine

/-! ### Expiries in a row -/

/-- The recursion of `timeouts` peels the first expiry; the retries are counted from the last. -/
theorem timeouts_succ (n : Nat) {s : State} (harmed : (timeouts n s).tmr = true) :
    timeouts (n + 1) s = failAttempt .timeout (timeouts n s) := by
  induction n generalizing s with
  | zero => exact if_pos harmed
  | succ n ih => exact ih (s := if s.tmr then failAttempt .timeout s else s) harmed

/-- After the write of the current attempt, `k` expiries with an attempt left: `k` more writes of the same bytes. -/
def State.retried (k : Nat) (s : State) : State :=
  { s with
    attempt := s.attempt + k
    lastCause := if k = 0 then s.lastCause else .timeout
    out := s.out ++ List.replicate k (.txd s.txBuf) }

theorem State.retried_zero (s : State) : s.retried 0 = s := by
  simp [State.retried]

section
variable {s : State} (harmed : s.tmr = true)
include harmed

theorem failAttempt_retried (hproc : s.proc = true) {k : Nat} (hleft : s.attempt + k < s.cfg.commandRetries.val) :
    failAttempt .timeout (s.retried k) = s.retried (k + 1) := by
  rw [failAttempt_retry .timeout (s.retried k) hleft]
  simp [State.retried, hproc, harmed, List.replicate_succ', Nat.add_assoc]

/-- While attempts are left, each expiry is one retry (rules R260 and R262). -/
theorem timeouts_eq_retried (hproc : s.proc = true) (k : Nat) (hle : s.attempt + k ≤ s.cfg.commandRetries.val) :
    timeouts k s = s.retried k := by
  induction k with
  | zero => exact s.retried_zero.symm
  | succ k ih =>
    have hk : timeouts k s = s.retried k := ih (by omega)
    rw [timeouts_succ k (by rw [hk]; exact harmed), hk, failAttempt_retried harmed hproc (by omega)]

/-- The expiry of the last attempt ends the command with the count of its attempts (rules R258 and R362). -/
theorem timeouts_exhausted (hproc : s.proc = true) {k : Nat} (hlast : s.attempt + k = s.cfg.commandRetries.val) :
    timeouts (k + 1) s = { s with
      attempt := s.attempt + k, lastCause := .timeout, proc := false, tmr := false, sess := .idle,
      out := s.out ++ List.replicate k (.txd s.txBuf) ++ [.res (.commandFailed (s.attempt + k) .timeout)] } := by
  have hk : timeouts k s = s.retried k := timeouts_eq_retried harmed hproc k hlast.le
  rw [timeouts_succ k (by rw [hk]; exact harmed), hk]
  exact failAttempt_final .timeout (s.retried k) hlast.ge

end

/-! ### An admitted EXEC -/

/-- The registers of a first attempt just written, whatever its packet (rule R251). -/
structure FirstAttempt (s t : State) : Prop where
  cfg : t.cfg = s.cfg
  proc : t.proc = true
  tmr : t.tmr = true
  attempt : t.attempt = 1
  lastCause : t.lastCause = .ok
  out : t.out = s.out ++ [.txd t.txBuf, .res (.ok [])]

/-- An EXEC that sets PROC was admitted: a refusal leaves PROC as it was (rules R251 and R269). -/
theorem firstAttempt_of_exec {flags : CmdFlags} {code : Byte} {args : Bytes} {s t : State} (hidle : s.proc = false)
    (hexec : exec (.exec flags code args) s = .next t) (hadmitted : t.proc = true) : FirstAttempt s t := by
  obtain rfl : (startCommand flags code args s).1 = t := Host.Outcome.next.inj hexec
  rcases startCommand_cases flags code args s with
    ⟨e, b, q, n, -, -, -, hrefused⟩ | ⟨packet, pad, q, n, -, -, -, -, -, hsent⟩
  · rw [hrefused] at hadmitted
    exact absurd (hidle.symm.trans hadmitted) Bool.false_ne_true
  · rw [hsent]
    exact ⟨rfl, rfl, rfl, rfl, rfl, rfl⟩

/-- Settles O33: EXEC makes the first write, every expiry with an attempt left makes one more, and the expiry of attempt
COMMAND_RETRIES ends the command. -/
theorem retryExhaustion : Obligations.RetryExhaustion := by
  refine ⟨rfl, fun flags code args s t hidle hexec hadmitted => ?_⟩
  have hfirst := firstAttempt_of_exec hidle hexec hadmitted
  refine ⟨?firstWrite, ?retries, ?failure⟩
  case firstWrite =>
    rw [hfirst.out]
    simp [txdWrites]
  case retries =>
    intro k hk
    have hle : t.attempt + k ≤ t.cfg.commandRetries.val := by rw [hfirst.attempt, hfirst.cfg]; omega
    rw [timeouts_eq_retried hfirst.tmr hfirst.proc k hle, State.retried, hfirst.attempt, hfirst.lastCause, Nat.add_comm]
  case failure =>
    obtain ⟨k, hk⟩ : ∃ k, s.cfg.commandRetries.val = 1 + k := Nat.exists_eq_add_of_le (one_le_commandRetries s)
    have hlast : t.attempt + k = t.cfg.commandRetries.val := by rw [hfirst.attempt, hfirst.cfg, hk]
    rw [hk, Nat.add_sub_cancel_left, Nat.add_comm 1 k, timeouts_exhausted hfirst.tmr hfirst.proc hlast, hfirst.attempt,
      Nat.add_comm 1 k]

end Sys2Proof.Machine
end

section
/-! PROOF. Key agreement (spec/45_key_agreement.md, rules R301 and R307).  Square-and-multiply keeps an invariant that makes
its answer the reduced power; the power of a power then gives both sides one key. -/

namespace Sys2Proof.Machine

/-! ### Square-and-multiply -/

/-- The loop stops where no bit of the exponent is left, whatever fuel it still has. -/
@[simp] theorem modexpLoop_zero_exponent (fuel r x m : Nat) : modexpLoop fuel r x 0 m = r := by
  cases fuel with
  | zero => rfl
  | succ fuel => exact if_pos rfl

/-- One turn: the lowest bit of the exponent decides the multiplication, the square serves the other bits. -/
theorem modexpLoop_turn (fuel r x m : Nat) {e : Nat} (he : e ≠ 0) :
    modexpLoop (fuel + 1) r x e m =
      modexpLoop fuel (if e % 2 = 1 then r * x % m else r) (x * x % m) (e / 2) m :=
  if_neg he

/-- The invariant of the loop: a turn keeps the product of the result so far and the power still to come. -/
theorem turn_modEq (r x e m : Nat) :
    (if e % 2 = 1 then r * x % m else r) * (x * x % m) ^ (e / 2) ≡ r * x ^ e [MOD m] := by
  have hsquare : (x * x % m) ^ (e / 2) ≡ x ^ (2 * (e / 2)) [MOD m] := by
    rw [pow_mul, sq]
    exact (Nat.mod_modEq (x * x) m).pow (e / 2)
  have hbits : 2 * (e / 2) + e % 2 = e := Nat.div_add_mod e 2
  split
  next hodd =>
    have hpow : x ^ e = x * x ^ (2 * (e / 2)) := by rw [← pow_succ', ← hodd, hbits]
    rw [hpow, ← mul_assoc]
    exact (Nat.mod_modEq (r * x) m).mul hsquare
  next heven =>
    have hpow : x ^ e = x ^ (2 * (e / 2)) := congrArg (x ^ ·) (by omega)
    rw [hpow]
    exact hsquare.mul_left r

/-- The loop with fuel for every bit of the exponent, from a reduced result. -/
theorem modexpLoop_eq {m : Nat} (fuel : Nat) {r : Nat} (x : Nat) {e : Nat} (hr : r < m) (he : e < 2 ^ fuel) :
    modexpLoop fuel r x e m = r * x ^ e % m := by
  induction fuel generalizing r x e with
  | zero =>
    obtain rfl : e = 0 := by omega
    simp [Nat.mod_eq_of_lt hr]
  | succ fuel ih =>
    by_cases hzero : e = 0
    · subst hzero
      simp [Nat.mod_eq_of_lt hr]
    · have hreduced : (if e % 2 = 1 then r * x % m else r) < m := by
        split
        · exact Nat.mod_lt _ (by omega)
        · exact hr
      rw [modexpLoop_turn fuel r x m hzero, ih _ hreduced (by omega)]
      exact turn_modEq r x e m

/-- Rule R301: the answer is the reduced power, the fuel `log2 e + 1` being the number of the exponent's bits. -/
theorem modexp_eq_pow_mod (b e : Nat) {m : Nat} (hm : 1 ≤ m) : modexp b e m = b ^ e % m := by
  have hstart : 1 % m * (b % m) ^ e ≡ 1 * b ^ e [MOD m] :=
    (Nat.mod_modEq 1 m).mul ((Nat.mod_modEq b m).pow e)
  calc modexp b e m
      = modexpLoop (Nat.log2 e + 1) (1 % m) (b % m) e m := if_neg (by omega)
    _ = 1 % m * (b % m) ^ e % m := modexpLoop_eq _ _ (Nat.mod_lt 1 hm) Nat.lt_log2_self
    _ = b ^ e % m := by rw [hstart, one_mul]

/-- Settles O48: the loop keeps the product of its result and the power still to come; the bound is that of a remainder. -/
theorem modexpIsThePower : Obligations.ModexpIsThePower := by
  intro b e m hm
  refine ⟨?bound, modexp_eq_pow_mod b e hm, ?zeroExponent⟩
  case bound =>
    rw [modexp_eq_pow_mod b e hm]
    exact Nat.mod_lt _ hm
  case zeroExponent => rw [modexp_eq_pow_mod b 0 hm, pow_zero]

/-! ### Agreement -/

/-- One side's key: its exponent applied to the other side's public value is the power by the product of both. -/
theorem modexp_modexp (g d e : Nat) {m : Nat} (hm : 1 ≤ m) : modexp (modexp g d m) e m = g ^ (d * e) % m := by
  rw [modexp_eq_pow_mod _ e hm, modexp_eq_pow_mod g d hm, ← Nat.pow_mod, ← pow_mul]

/-- Settles O49: both keys are the generator's power by the product of the two exponents, in either order. -/
theorem keyAgreement : Obligations.KeyAgreement := by
  intro generator hostRandom slaveRandom modulus hm
  have hkey : modexp (modexp generator slaveRandom modulus) hostRandom modulus =
      generator ^ (hostRandom * slaveRandom) % modulus := by
    rw [modexp_modexp generator slaveRandom hostRandom hm, mul_comm]
  exact ⟨hkey.trans (modexp_modexp generator hostRandom slaveRandom hm).symm, hkey⟩

end Sys2Proof.Machine
end

section
/-! PROOF. Records and the operations they carry (spec/30_encoding.md): reading an operation's record gives the operation
back, and one step runs it.  The converse, `decodeRecord_ok`, stands above. -/

namespace Sys2Proof

open Sys2Proof.Machine

/-! ### Numbers and the boolean read back -/

/-- A number laid out in `n` bytes is read back, the rest untouched (rule R71). -/
theorem takeNumber_append {n v : Nat} {xs : Bytes} (hlen : xs.length = n) (hv : fromLe xs = v) (rest : Bytes) :
    takeNumber n (xs ++ rest) = .ok (v, rest) := by
  subst hlen hv
  rw [takeNumber, takeBytes_append]

theorem takeNumber_le32 (v : BitVec 32) (rest : Bytes) : takeNumber 4 (le32 v ++ rest) = .ok (v.toNat, rest) :=
  takeNumber_append (le32_length v) (fromLe_le32 v) rest

theorem takeNumber_le64 (v : BitVec 64) (rest : Bytes) : takeNumber 8 (le64 v ++ rest) = .ok (v.toNat, rest) :=
  takeNumber_append (le64_length v) (fromLe_le64 v) rest

/-- An integer that fits its field of eight bytes is read back (log entry 6). -/
theorem takeNumber_le64_ofNat {n : Nat} (h : wfInteger n = true) (rest : Bytes) :
    takeNumber 8 (le64 (BitVec.ofNat 64 n) ++ rest) = .ok (n, rest) := by
  have hn : n < 2 ^ 64 := of_decide_eq_true h
  rw [takeNumber_le64, BitVec.toNat_ofNat, Nat.mod_eq_of_lt hn]

theorem takeBool_encode (d : Bool) (rest : Bytes) :
    takeBool ((if d then 1 else 0) :: rest) = .ok (d, rest) := by
  cases d <;> rfl

/-! ### Operations read back -/

/-- After the code byte of a well-formed operation its operands are read back, and what follows is left (rule R121). -/
theorem decodeOperands_encodeOperands (i : Instr) (h : WellFormed i = true) (rest : Bytes) :
    decodeOperands (opcode i) (encodeOperands i ++ rest) = .ok (i, rest) := by
  have string : ∀ {s : Bytes} (r : Bytes), wfString s = true → takeString (encodeString s ++ r) = .ok (s, r) :=
    fun r hs => takeString_encode _ r (of_decide_eq_true hs)
  have key : ∀ {k : Bytes} (r : Bytes), wfKey k = true → takeKey (k ++ r) = .ok (k, r) :=
    fun r hk => takeKey_append _ r (beq_iff_eq.mp hk)
  cases i with
  | crc16 data => exact except_bind_ok.mpr ⟨_, string rest h, rfl⟩
  | stuff data => exact except_bind_ok.mpr ⟨_, string rest h, rfl⟩
  | rxChunk data => exact except_bind_ok.mpr ⟨_, string rest h, rfl⟩
  | frameIn frame => exact except_bind_ok.mpr ⟨_, string rest h, rfl⟩
  | keyInstall k => exact except_bind_ok.mpr ⟨_, key rest h, rfl⟩
  | poll desired => exact except_bind_ok.mpr ⟨_, takeBool_encode desired rest, rfl⟩
  | aesEnc k data =>
    obtain ⟨hk, hd⟩ := Bool.and_eq_true_iff.mp h
    rw [encodeOperands, List.append_assoc]
    exact except_bind_ok.mpr ⟨_, key _ hk, except_bind_ok.mpr ⟨_, string rest hd, rfl⟩⟩
  | aesDec k data =>
    obtain ⟨hk, hd⟩ := Bool.and_eq_true_iff.mp h
    rw [encodeOperands, List.append_assoc]
    exact except_bind_ok.mpr ⟨_, key _ hk, except_bind_ok.mpr ⟨_, string rest hd, rfl⟩⟩
  | exec flags code args =>
    exact except_bind_ok.mpr ⟨_, takeFlags_encode flags _, except_bind_ok.mpr ⟨_, takeByte_cons code _,
      except_bind_ok.mpr ⟨_, string rest h, rfl⟩⟩⟩
  | build flags code sb k e args =>
    obtain ⟨hk, ha⟩ := Bool.and_eq_true_iff.mp h
    have hlayout : encodeOperands (.build flags code sb k e args) ++ rest =
        encodeFlags flags :: code :: sb :: (encodeOptKey k ++ (le32 e ++ (encodeString args ++ rest))) := by
      simp [encodeOperands]
    rw [hlayout]
    refine except_bind_ok.mpr ⟨_, takeFlags_encode flags _, except_bind_ok.mpr ⟨_, takeByte_cons code _,
      except_bind_ok.mpr ⟨_, takeByte_cons sb _, except_bind_ok.mpr ⟨_, takeOptKey_encode k _ hk,
      except_bind_ok.mpr ⟨_, takeNumber_le32 e _, except_bind_ok.mpr ⟨_, string rest ha, ?_⟩⟩⟩⟩⟩⟩
    simp
  | extract frame k e =>
    obtain ⟨hf, hk⟩ := Bool.and_eq_true_iff.mp h
    rw [encodeOperands, List.append_assoc, List.append_assoc]
    refine except_bind_ok.mpr ⟨_, string _ hf, except_bind_ok.mpr ⟨_, takeOptKey_encode k _ hk,
      except_bind_ok.mpr ⟨_, takeNumber_le32 e rest, ?_⟩⟩⟩
    simp
  | deriveKey bytes fixedKey hostRandom modulus =>
    obtain ⟨hbr, hm⟩ := Bool.and_eq_true_iff.mp h
    obtain ⟨hb, hr⟩ := Bool.and_eq_true_iff.mp hbr
    rw [encodeOperands, List.append_assoc, List.append_assoc, List.append_assoc]
    refine except_bind_ok.mpr ⟨_, string _ hb, except_bind_ok.mpr ⟨_, takeNumber_le64 fixedKey _,
      except_bind_ok.mpr ⟨_, takeNumber_le64_ofNat hr _, except_bind_ok.mpr ⟨_, takeNumber_le64_ofNat hm rest, ?_⟩⟩⟩⟩
    simp
  | keyClear | rxFlush | timeout | genKeypair | initEncryption | enable | disable => rfl
  | rxByte b => rfl

/-- A record is read back whole (rules R120 and R121). -/
theorem decodeRecord_encode {i : Instr} (h : WellFormed i = true) : decodeRecord (encode i) = .ok i := by
  have hprefix : decodePrefix (encode i) = .ok (i, []) := by
    have hread := decodeOperands_encodeOperands i h []
    rwa [List.append_nil] at hread
  rw [decodeRecord, hprefix]

end Sys2Proof

namespace Sys2Proof.Machine

/-- Settles O1: operand by operand, each reader gives back what the encoder wrote before what follows. -/
theorem decodeInvertsEncode : Obligations.DecodeInvertsEncode :=
  fun _ h => decodeRecord_encode h

/-- Settles O2: each reader's success fixes the bytes it took. -/
theorem encodeInvertsDecode : Obligations.EncodeInvertsDecode :=
  fun _ _ h => decodeRecord_ok h

/-- Settles O3: the eight records are closed bytes, which the decoder reads by evaluation. -/
theorem writtenRecordsDecode : Obligations.WrittenRecordsDecode := by
  unfold Obligations.WrittenRecordsDecode
  decide

/-- A record of an operation, presented at the operation's port, is fetched as that operation (rules R120 and R123). -/
theorem fetch_record {s : State} {i : Instr} {bs : Bytes} {rest : List Input}
    (hin : s.inbox = .record (portOf i) bs :: rest) (hdec : decodeRecord bs = .ok i) :
    fetch s = .operation i (s.setInbox rest) := by
  rw [fetch, hin]
  simp [fetchRecord, hdec]

/-- Settles O4: the fetch takes the input and hands the decoded operation to `exec`. -/
theorem stepRunsTheDecodedOperation : Obligations.StepRunsTheDecodedOperation := by
  intro s i bs rest hin hdec _
  rw [step, fetch_record hin hdec]
  rfl

/-- Settles O6: every arm of `exec` answers `.next`, whatever its operands and the state. -/
theorem everyOperationHasANextState : Obligations.EveryOperationHasANextState := by
  intro i s
  cases i <;> exact ⟨_, rfl⟩

end Sys2Proof.Machine
end

section
/-! PROOF. The laws of the byte stuffer (rule R146), the block ciphers as operations (rules R190 to R192) and the words of
the key schedule (rule R197). -/

namespace Sys2Proof.Machine

/-! ### The stuffer -/

theorem stuff_cons_stx (s : Bytes) : stuff (stx :: s) = stx :: stx :: stuff s :=
  if_pos rfl

theorem stuff_cons_ne {b : Byte} (h : b ≠ stx) (s : Bytes) : stuff (b :: s) = b :: stuff s :=
  if_neg h

theorem length_stuff (s : Bytes) : (stuff s).length = s.length + s.count stx := by
  induction s with
  | nil => rfl
  | cons b s ih =>
    by_cases hb : b = stx
    · subst hb
      rw [stuff_cons_stx, List.count_cons_self]
      simp only [List.length_cons, ih]
      omega
    · rw [stuff_cons_ne hb, List.count_cons_of_ne hb]
      simp only [List.length_cons, ih]
      omega

theorem stuff_append (s t : Bytes) : stuff (s ++ t) = stuff s ++ stuff t := by
  simp only [stuff_eq_flatMap, List.flatMap_append]

/-- Runs of 0x7F in stuffed data are even: two such bytes at a time leave the run, a byte of another value ends it. -/
theorem stuff_run_even {s pre post : Bytes} {k : Nat} (h : stuff s = pre ++ (List.replicate k stx ++ post))
    (hpre : pre.getLast? ≠ some stx) (hpost : post.head? ≠ some stx) : k % 2 = 0 := by
  induction s generalizing pre k with
  | nil =>
    obtain ⟨-, hrun⟩ := List.append_eq_nil_iff.mp h.symm
    obtain ⟨hzero, -⟩ := List.append_eq_nil_iff.mp hrun
    rw [(List.replicate_eq_nil_iff stx).mp hzero]
  | cons b s ih =>
    by_cases hb : b = stx
    · subst hb
      rw [stuff_cons_stx] at h
      match pre, k, hpre, h with
      | [], 0, _, _ => rfl
      | [], 1, _, h =>
        obtain ⟨-, htail⟩ := List.cons.inj h
        exact absurd (congrArg List.head? htail).symm hpost
      | [], k + 2, _, h =>
        obtain ⟨-, h⟩ := List.cons.inj h
        obtain ⟨-, h⟩ := List.cons.inj h
        have := ih (pre := []) h (by simp)
        omega
      | [c], _, hpre, h => exact absurd (by rw [(List.cons.inj h).1]; rfl) hpre
      | c :: d :: pre, k, hpre, h =>
        obtain ⟨-, h⟩ := List.cons.inj h
        obtain ⟨hd, h⟩ := List.cons.inj h
        refine ih h fun hlast => hpre ?_
        cases pre with
        | nil => cases hlast
        | cons e pre => simpa using hlast
    · rw [stuff_cons_ne hb] at h
      match pre, k, hpre, h with
      | [], 0, _, _ => rfl
      | [], k + 1, _, h => exact absurd (List.cons.inj h).1 hb
      | c :: pre, k, hpre, h =>
        obtain ⟨-, h⟩ := List.cons.inj h
        refine ih h fun hlast => hpre ?_
        cases pre with
        | nil => cases hlast
        | cons e pre => simpa using hlast

theorem unstuff_cons_ne {b : Byte} (h : b ≠ stx) (t : Bytes) : unstuff (b :: t) = (unstuff t).map (b :: ·) := by
  cases t with
  | nil => exact if_neg h
  | cons c t => exact if_neg h

theorem unstuff_cons_stx_stx (t : Bytes) : unstuff (stx :: stx :: t) = (unstuff t).map (stx :: ·) := by
  simp [unstuff]

/-- `unstuff` is the left inverse of `stuff` (rule R147). -/
theorem unstuff_stuff (s : Bytes) : unstuff (stuff s) = some s := by
  induction s with
  | nil => rfl
  | cons b s ih =>
    by_cases hb : b = stx
    · subst hb
      rw [stuff_cons_stx, unstuff_cons_stx_stx, ih]
      rfl
    · rw [stuff_cons_ne hb, unstuff_cons_ne hb, ih]
      rfl

/-- `unstuff` has a value on the image of `stuff` only. -/
theorem stuff_of_unstuff {t s : Bytes} (h : unstuff t = some s) : stuff s = t := by
  induction t using unstuff.induct generalizing s with
  | case1 => cases h; rfl
  | case2 => simp [unstuff] at h
  | case3 b hb =>
    rw [unstuff_cons_ne hb] at h
    cases h
    exact stuff_cons_ne hb []
  | case4 t ih =>
    rw [unstuff_cons_stx_stx] at h
    obtain ⟨s', hs', rfl⟩ := Option.map_eq_some_iff.mp h
    rw [stuff_cons_stx, ih hs']
  | case5 c t hc => simp [unstuff, hc] at h
  | case6 b c t hb ih =>
    rw [unstuff_cons_ne hb] at h
    obtain ⟨s', hs', rfl⟩ := Option.map_eq_some_iff.mp h
    rw [stuff_cons_ne hb, ih hs']

/-- Settles O10: lengths, concatenation and runs by induction on the string; injectivity because `unstuff` is a left
inverse. -/
theorem stuffLaws : Obligations.StuffLaws := by
  refine ⟨fun s => ⟨length_stuff s, stuff_length_le s⟩, stuff_append, ?runs, ?injective, ?inverse⟩
  case runs =>
    intro s pre post k h
    rw [List.append_assoc] at h
    exact stuff_run_even h
  case injective =>
    intro s t h
    exact Option.some.inj ((unstuff_stuff s).symm.trans ((congrArg unstuff h).trans (unstuff_stuff t)))
  case inverse =>
    intro t s
    refine ⟨stuff_of_unstuff, ?_⟩
    rintro rfl
    exact unstuff_stuff s

/-! ### AES_ENC and AES_DEC -/

theorem exec_aesEnc (key data : Bytes) (s : State) : exec (.aesEnc key data) s = .next (s.answer (aesEncrypt key data)) :=
  rfl

theorem exec_aesDec (key data : Bytes) (s : State) : exec (.aesDec key data) s = .next (s.answer (aesDecrypt key data)) :=
  rfl

theorem State.answer_ok (s : State) (data : Bytes) :
    s.answer (.ok data) = { s with out := s.out ++ [.res (.ok data)] } :=
  rfl

theorem State.answer_error (s : State) (e : Status) :
    s.answer (.error e) = { s with out := s.out ++ [.res (.error e)] } :=
  rfl

/-- The block number `j` of what ECB answers is `f` of the block number `j` (rule R192). -/
theorem slice_mapBlocks {f : Bytes → Bytes} (hf : ∀ b, (f b).length = 16) {j n : Nat} (hj : j < n) (d : Bytes) :
    slice (mapBlocks f n d) (16 * j) (16 * j + 16) = f (slice d (16 * j) (16 * j + 16)) := by
  induction j generalizing n d with
  | zero =>
    obtain ⟨m, rfl⟩ : ∃ m, n = m + 1 := ⟨n - 1, by omega⟩
    rw [mapBlocks]
    exact List.take_left' (hf _)
  | succ j ih =>
    obtain ⟨m, rfl⟩ : ∃ m, n = m + 1 := ⟨n - 1, by omega⟩
    have hshift : ∀ t : Bytes, slice t (16 * (j + 1)) (16 * (j + 1) + 16) =
        slice (t.drop 16) (16 * j) (16 * j + 16) := by
      intro t
      rw [slice, slice, List.drop_drop, show 16 + 16 * j = 16 * (j + 1) by omega]
      congr 1
      omega
    rw [hshift, hshift, mapBlocks, List.drop_left' (hf _)]
    exact ih (by omega) _

/-- Settles O11: on whole blocks both operations are ECB of their cipher, which keeps the block's length. -/
theorem aesAnswers : Obligations.AesAnswers := by
  intro key data s
  refine ⟨?wrongLength, ?wholeBlocks⟩
  case wrongLength =>
    intro h
    have hbad : ¬ (key.length = aesKeyBytes ∧ data.length % aesBlockBytes = 0) := by
      rintro ⟨hkey, hdata⟩
      exact h.elim (absurd hkey) (absurd hdata)
    rw [exec_aesEnc, exec_aesDec, aesEncrypt, aesDecrypt, if_neg hbad, if_neg hbad]
    exact ⟨rfl, rfl⟩
  case wholeBlocks =>
    intro hkey hdata
    obtain ⟨n, hn⟩ := Nat.dvd_of_mod_eq_zero hdata
    have hrk := roundKeys_keyExpansion hkey
    refine ⟨_, _, by rw [exec_aesEnc, ecbOf_aesEncrypt hkey n data hn]; rfl,
      by rw [exec_aesDec, ecbOf_aesDecrypt hkey n data hn]; rfl,
      (length_mapBlocks (length_cipher hrk) n data).trans hn.symm,
      (length_mapBlocks (length_invCipher hrk) n data).trans hn.symm, fun j hj => ?_⟩
    have hj' : j < n := by omega
    exact ⟨slice_mapBlocks (length_cipher hrk) hj' data, slice_mapBlocks (length_invCipher hrk) hj' data⟩

/-! ### The words of the key schedule -/

/-- The word number `i` of the key schedule: four bytes of the round key number `i / 4` (rule R197). -/
def keyWord (key : Bytes) (i : Nat) : Bytes :=
  slice (roundKey key (i / 4)) (4 * (i % 4)) (4 * (i % 4) + 4)

theorem getD_keyExpansion (key : Bytes) {j : Nat} (hj : j < 11) : (keyExpansion key).getD j [] = roundKey key j := by
  simp [keyExpansion, hj]

/-- The word number `m` of the four that make up a round key. -/
def wordOf (rk : Bytes) (m : Nat) : Bytes :=
  slice rk (4 * m) (4 * m + 4)

theorem length_wordOf {rk : Bytes} (h : rk.length = 16) {m : Nat} (hm : m < 4) : (wordOf rk m).length = 4 := by
  rw [wordOf, length_slice (by omega)]
  omega

/-- The words of four words put together. -/
theorem wordOf_append {w0 w1 w2 w3 : Bytes} (h0 : w0.length = 4) (h1 : w1.length = 4) (h2 : w2.length = 4)
    (h3 : w3.length = 4) :
    wordOf (w0 ++ w1 ++ w2 ++ w3) 0 = w0 ∧ wordOf (w0 ++ w1 ++ w2 ++ w3) 1 = w1 ∧
      wordOf (w0 ++ w1 ++ w2 ++ w3) 2 = w2 ∧ wordOf (w0 ++ w1 ++ w2 ++ w3) 3 = w3 := by
  simp only [List.append_assoc]
  refine ⟨slice_middle (a := []) _ rfl (by omega), slice_middle (a := w0) _ h0 (by omega), ?_, ?_⟩
  · rw [← List.append_assoc]
    exact slice_middle (a := w0 ++ w1) _ (by simp [h0, h1]) (by omega)
  · have hlast := slice_middle (a := w0 ++ w1 ++ w2) (b := w3) (i := 12) (j := 16) [] (by simp [h0, h1, h2]) (by omega)
    rw [List.append_nil, List.append_assoc, List.append_assoc] at hlast
    exact hlast

/-- The four words of the next round key (rule R197). -/
theorem wordOf_nextRoundKey (j : Nat) {rk : Bytes} (h : rk.length = 16) :
    wordOf (nextRoundKey j rk) 0 = xorBytes (wordOf rk 0) (keyCore j (wordOf rk 3)) ∧
      ∀ m, m < 3 →
        wordOf (nextRoundKey j rk) (m + 1) = xorBytes (wordOf rk (m + 1)) (wordOf (nextRoundKey j rk) m) := by
  have hxor : ∀ {u v : Bytes}, u.length = 4 → v.length = 4 → (xorBytes u v).length = 4 :=
    fun hu hv => (length_xorBytes (hu.trans hv.symm)).trans hv
  have h0 := hxor (length_wordOf h (m := 0) (by decide)) (v := keyCore j (wordOf rk 3)) rfl
  have h1 := hxor (length_wordOf h (m := 1) (by decide)) h0
  have h2 := hxor (length_wordOf h (m := 2) (by decide)) h1
  have h3 := hxor (length_wordOf h (m := 3) (by decide)) h2
  obtain ⟨e0, e1, e2, e3⟩ := wordOf_append h0 h1 h2 h3
  refine ⟨e0, fun m hm => ?_⟩
  match m, hm with
  | 0, _ => exact e1.trans (congrArg _ e0.symm)
  | 1, _ => exact e2.trans (congrArg _ e1.symm)
  | 2, _ => exact e3.trans (congrArg _ e2.symm)

/-- The recurrence of rule R197 on the words of the round keys. -/
theorem keyWord_recurrence {key : Bytes} (h : key.length = 16) {i : Nat} (hi : 4 ≤ i) :
    (i % 4 ≠ 0 → keyWord key i = xorBytes (keyWord key (i - 4)) (keyWord key (i - 1))) ∧
      (i % 4 = 0 → keyWord key i = xorBytes (keyWord key (i - 4)) (keyCore (i / 4) (keyWord key (i - 1)))) := by
  obtain ⟨j, m, hm, rfl⟩ : ∃ j m, m < 4 ∧ i = 4 * (j + 1) + m := ⟨i / 4 - 1, i % 4, by omega, by omega⟩
  have hword : ∀ {l n}, n < 4 → keyWord key (4 * l + n) = wordOf (roundKey key l) n := by
    intro l n hn
    rw [keyWord, wordOf, show (4 * l + n) / 4 = l by omega, show (4 * l + n) % 4 = n by omega]
  obtain ⟨hfirst, hnext⟩ := wordOf_nextRoundKey (j + 1) (length_roundKey h j)
  have hback : 4 * (j + 1) + m - 4 = 4 * j + m := by omega
  rw [hback, hword hm, hword hm]
  refine ⟨fun hne => ?_, fun heq => ?_⟩
  · obtain ⟨n, rfl⟩ : ∃ n, m = n + 1 := ⟨m - 1, by omega⟩
    rw [show 4 * (j + 1) + (n + 1) - 1 = 4 * (j + 1) + n by omega, hword (by omega)]
    exact hnext n (by omega)
  · obtain rfl : m = 0 := by omega
    rw [show 4 * (j + 1) + 0 - 1 = 4 * j + 3 by omega, hword (by decide), show (4 * (j + 1) + 0) / 4 = j + 1 by omega]
    exact hfirst

/-- Settles O13: a round key is four words, the first through RotWord, SubWord and the round constant. -/
theorem keyExpansionWordByWord : Obligations.KeyExpansionWordByWord := by
  intro key hkey w
  have hw : ∀ i, i ≤ 43 → w i = keyWord key i := by
    intro i hi
    rw [keyWord, ← getD_keyExpansion key (show i / 4 < 11 by omega)]
  refine ⟨fun i hi => ?_, fun i hi hi' hne => ?_, fun i hi hi' heq => ?_⟩
  · rw [hw i (by omega), keyWord, show i / 4 = 0 by omega, show i % 4 = i by omega]
    rfl
  · rw [hw i hi', hw (i - 4) (by omega), hw (i - 1) (by omega)]
    exact (keyWord_recurrence hkey hi).1 hne
  · rw [hw i hi', hw (i - 4) (by omega), hw (i - 1) (by omega), (keyWord_recurrence hkey hi).2 heq]
    obtain ⟨j, hj⟩ : ∃ j, i / 4 = j + 1 := ⟨i / 4 - 1, by omega⟩
    rw [hj]
    rfl

end Sys2Proof.Machine
end

section
/-! PROOF. BUILD and EXTRACT as operations (spec/43_packet_codec.md): the errors of each in their order, what each answers
otherwise, and the shape of a packet. -/

namespace Sys2Proof.Machine

/-! ### The first steps of BUILD (rules R220, R221 and R224) -/

/-- How many padding bytes BUILD draws: none without a key (rules R113 and R222). -/
def paddingOf (args : Bytes) : Option Bytes → Nat
  | none => 0
  | some _ => padLen (args.length + 1)

section
variable {reqArgs : Bool} {args : Bytes} {key : Option Bytes}

theorem buildPadLen_argsRequired (hreq : reqArgs = true) (hargs : args = []) :
    buildPadLen reqArgs args key = .error .argsRequired := by
  simp [buildPadLen, hreq, hargs]

theorem buildPadLen_of_args (hargs : reqArgs = true → args ≠ []) : buildPadLen reqArgs args key =
    if args.length + 1 > payloadLimit key then .error .payloadTooLong else .ok (paddingOf args key) := by
  have hpresent : ¬ (reqArgs && args.isEmpty) = true := by
    simpa using hargs
  unfold buildPadLen
  rw [if_neg hpresent]
  cases key <;> rfl

theorem buildPadLen_tooLong (hlong : args.length + 1 > payloadLimit key) :
    buildPadLen reqArgs args key = .error .payloadTooLong := by
  have hargs : args ≠ [] := by
    rintro rfl
    cases key <;> simp [payloadLimit] at hlong
  rw [buildPadLen_of_args fun _ => hargs, if_pos hlong]

theorem buildPadLen_ok (hargs : reqArgs = true → args ≠ []) (hfits : args.length + 1 ≤ payloadLimit key) :
    buildPadLen reqArgs args key = .ok (paddingOf args key) := by
  rw [buildPadLen_of_args hargs, if_neg (Nat.not_lt.mpr hfits)]

end

/-! ### The packet -/

section
variable {reqArgs : Bool} {args : Bytes} (code sb : Byte) (e : Count)

/-- BUILD refuses before it draws (rule R220). -/
theorem buildWithDraw_error {key : Option Bytes} {err : Status} (h : buildPadLen reqArgs args key = .error err)
    (s : State) : buildWithDraw reqArgs code args sb key e s = (.error err, s) := by
  rw [buildWithDraw, h]

/-- Without a key the payload is DATA and nothing is drawn (rules R220 and R223). -/
theorem buildWithDraw_none (hargs : reqArgs = true → args ≠ []) (hfits : args.length ≤ 254) (s : State) :
    buildWithDraw reqArgs code args sb none e s = (.ok (wirePacket sb (code :: args)), s) := by
  have hpad : buildPadLen reqArgs args none = .ok 0 := buildPadLen_ok hargs (Nat.succ_le_succ hfits)
  simp [buildWithDraw, buildPacket, hpad, State.drawBytes, buildData]

/-- With a key the packet carries the envelope (rules R110 and R222). -/
theorem buildPacket_some {k : Bytes} (hk : k.length = 16) (hargs : reqArgs = true → args ≠ [])
    (hfits : args.length ≤ 232) {pad : Bytes} (hpad : pad.length = padLen (args.length + 1)) :
    ∃ c, aesEncrypt k (innerPlain e (code :: args) pad) = .ok c ∧
      buildPacket reqArgs code args sb (some k) e pad = .ok (wirePacket sb (stex :: c)) := by
  obtain ⟨n, hn⟩ := Nat.dvd_of_mod_eq_zero (length_innerPlain_mod (payload := code :: args) hpad e)
  have henc := ecbOf_aesEncrypt hk n _ hn
  have hok := buildPadLen_ok (key := some k) hargs (Nat.succ_le_succ hfits)
  exact ⟨_, henc, by rw [buildPacket, hok, buildData, henc]⟩

/-- BUILD with a key draws its padding and answers the envelope's packet. -/
theorem buildWithDraw_some {k : Bytes} (hk : k.length = 16) (hargs : reqArgs = true → args ≠ [])
    (hfits : args.length ≤ 232) (s : State) : ∃ pad c q n, pad.length = padLen (args.length + 1) ∧
      aesEncrypt k (innerPlain e (code :: args) pad) = .ok c ∧
      buildPacket reqArgs code args sb (some k) e pad = .ok (wirePacket sb (stex :: c)) ∧
      buildWithDraw reqArgs code args sb (some k) e s = (.ok (wirePacket sb (stex :: c)), s.setDraws q n) := by
  have hok := buildPadLen_ok (key := some k) hargs (Nat.succ_le_succ hfits)
  rcases buildWithDraw_cases reqArgs code args sb (some k) e s with ⟨err, herr, -⟩ | ⟨p, pad, q, n, hp, hlen, hdraw⟩
  · cases hok.symm.trans herr
  · obtain rfl : paddingOf args (some k) = p := Except.ok.inj (hok.symm.trans hp)
    obtain ⟨c, henc, hbuild⟩ := buildPacket_some code sb e hk hargs hfits hlen
    exact ⟨pad, c, q, n, hlen, henc, hbuild, hdraw.trans (by rw [hbuild])⟩

end

/-! ### BUILD as an operation -/

theorem exec_build {key : Option Bytes} (hkey : wfOptKey key = true) (flags : CmdFlags) (code sb : Byte) (e : Count)
    (args : Bytes) (s : State) : exec (.build flags code sb key e args) s =
      .next ((buildWithDraw flags.reqArgs code args sb key e s).2.answer
        (buildWithDraw flags.reqArgs code args sb key e s).1) :=
  congrArg Host.Outcome.next (if_pos hkey)

/-- A key operand of another length is an illegal record (rule R123). -/
theorem exec_build_illegal {k : Bytes} (hk : k.length ≠ 16) (flags : CmdFlags) (code sb : Byte) (e : Count)
    (args : Bytes) (s : State) : exec (.build flags code sb (some k) e args) s = .next (illegalOp s) :=
  congrArg Host.Outcome.next (if_neg (mt beq_iff_eq.mp hk))

/-- Settles O14: BUILD's tests in their order; past them the payload is DATA. -/
theorem buildPlainAnswers : Obligations.BuildPlainAnswers := by
  intro flags code sb e args s
  rw [exec_build rfl]
  by_cases hmissing : flags.reqArgs = true ∧ args = []
  · rw [if_pos hmissing, buildWithDraw_error code sb e (buildPadLen_argsRequired hmissing.1 hmissing.2), State.answer_error]
  rw [if_neg hmissing]
  by_cases hlong : args.length > 254
  · have htooLong : buildPadLen flags.reqArgs args none = .error .payloadTooLong :=
      buildPadLen_tooLong (Nat.succ_lt_succ hlong)
    rw [if_pos hlong, buildWithDraw_error code sb e htooLong, State.answer_error]
  · rw [if_neg hlong, buildWithDraw_none code sb e (not_and.mp hmissing) (Nat.le_of_not_lt hlong), State.answer_ok]
    rfl

/-- Settles O15: BUILD's tests in their order; past them AES_ENC answers, as the padding makes whole blocks. -/
theorem buildEncryptedAnswers : Obligations.BuildEncryptedAnswers := by
  intro flags code sb k e args s
  have hwf : k.length = 16 → wfOptKey (some k) = true := beq_iff_eq.mpr
  refine ⟨fun hk => exec_build_illegal hk .., fun hk hreq hargs => ?_, fun hk hlong => ?_, fun hk hargs hfits => ?_⟩
  · rw [exec_build (hwf hk), buildWithDraw_error code sb e (buildPadLen_argsRequired hreq hargs), State.answer_error]
  · have htooLong : buildPadLen flags.reqArgs args (some k) = .error .payloadTooLong :=
      buildPadLen_tooLong (Nat.succ_lt_succ hlong)
    rw [exec_build (hwf hk), buildWithDraw_error code sb e htooLong, State.answer_error]
  · obtain ⟨pad, c, q, n, hpad, henc, -, hdraw⟩ := buildWithDraw_some code sb e hk hargs hfits s
    exact ⟨_, pad, c, exec_build (hwf hk) .., hpad, henc, by rw [hdraw]; exact ⟨rfl, rfl⟩⟩

/-! ### The shape of a packet -/

/-- The sequence byte is never 0x7F, so stuffing leaves it where it is (rule R225 (a)). -/
theorem byteAt_wirePacket_one {sb : Byte} (hsb : sb ≠ stx) (data : Bytes) : byteAt (wirePacket sb data) 1 = sb := by
  have hstuff : wirePacket sb data = stx :: sb :: stuff ((packetBody sb data).drop 1) :=
    congrArg (stx :: ·) (stuff_cons_ne hsb _)
  rw [hstuff]
  rfl

theorem le_length_wirePacket (sb : Byte) (data : Bytes) : data.length + 5 ≤ (wirePacket sb data).length := by
  have hstuff := length_stuff (packetBody sb data)
  rw [packetBody_length] at hstuff
  rw [wirePacket, List.length_cons]
  omega

/-- Settles O16: DATA is the payload, or an envelope whose ciphertext has the length of its plaintext; stuffing keeps the
sequence byte and at most doubles the packet. -/
theorem builtPacketShape : Obligations.BuiltPacketShape := by
  intro reqArgs code args sb key e pad w hkey hpad hsb hbuild
  have shape : ∀ data : Bytes, 1 ≤ data.length → data.length ≤ 255 → w = wirePacket sb data →
      w.head? = some 0x7F ∧ byteAt w 1 = sb ∧ 6 ≤ w.length ∧ w.length ≤ 519 := by
    rintro data hpos hdata rfl
    have hlen := le_length_wirePacket sb data
    exact ⟨rfl, byteAt_wirePacket_one hsb data, by omega, wirePacket_length_le sb data hdata⟩
  cases key with
  | none =>
    obtain ⟨hw, hdata⟩ := buildPacket_none_ok hbuild
    have hpos : 1 ≤ (code :: args).length := Nat.le_add_left 1 _
    obtain ⟨hhead, hbyte, hmin, hmax⟩ := shape _ hpos hdata hw
    exact ⟨hhead, hbyte, hmin, hmax, _, hw, hpos, hdata, fun _ => rfl, fun h => absurd rfl h⟩
  | some k =>
    obtain ⟨c, henc, hw, hpayload⟩ := buildPacket_some_ok hbuild
    obtain ⟨-, hlen⟩ := aesDecrypt_of_aesEncrypt_innerPlain (beq_iff_eq.mp hkey) hpad henc
    rw [List.length_cons] at hlen hpayload
    have hdata : (stex :: c).length = 1 + (args.length + 1 + 7 + padLen (args.length + 1)) := by
      rw [List.length_cons, hlen, Nat.add_comm]
    have hblocks : (stex :: c).length % 16 = 1 ∧ 17 ≤ (stex :: c).length ∧ (stex :: c).length ≤ 241 := by
      rw [hdata, padLen]
      omega
    obtain ⟨hmod, hlow, hhigh⟩ := hblocks
    obtain ⟨hhead, hbyte, hmin, hmax⟩ := shape _ (by omega) (by omega) hw
    exact ⟨hhead, hbyte, hmin, hmax, _, hw, by omega, by omega, nofun, fun _ => ⟨rfl, hdata, hmod, hlow, hhigh⟩⟩

/-! ### The tests of EXTRACT -/

/-- The frame is no packet: too short, of another length than its LENGTH byte says, or with a wrong CRC (rule R231). -/
abbrev BadFrame (f : Bytes) : Prop :=
  f.length < 5 ∨ f.length ≠ (byteAt f 2).toNat + 5 ∨
    crc16 ((f.drop 1).take (f.length - 3)) ≠ f.drop (f.length - 2)

theorem head?_ne_stx_iff (f : Bytes) : f.head? ≠ some stx ↔ (f.length = 0 ∨ byteAt f 0 ≠ stx) := by
  cases f with
  | nil => simp
  | cons b f => simp [byteAt]

/-- EXTRACT's tests, the CRC and DATA given by the frame's length (rules R230, R231 and R143). -/
theorem checkFrame_eq (f : Bytes) : checkFrame f =
    if f.head? ≠ some stx then .error .unknownResponse
    else if BadFrame f then .error .crcMismatch
    else .ok ((f.drop 3).take (f.length - 5)) := by
  unfold checkFrame
  simp only [← head?_ne_stx_iff]
  split
  · rfl
  by_cases hlen : f.length < 5 ∨ f.length ≠ (byteAt f 2).toNat + 5
  · have hbad : BadFrame f := hlen.imp_right .inl
    rw [if_pos hlen, if_pos hbad]
  · obtain ⟨hlong, heq⟩ : 5 ≤ f.length ∧ f.length = (byteAt f 2).toNat + 5 := by omega
    have hcore : slice f 1 (3 + (byteAt f 2).toNat) = (f.drop 1).take (f.length - 3) := by
      rw [slice, heq]
      congr 1
      omega
    have hcrc : slice f (3 + (byteAt f 2).toNat) (5 + (byteAt f 2).toNat) = f.drop (f.length - 2) := by
      have hstart : 3 + (byteAt f 2).toNat = f.length - 2 := by omega
      rw [slice, hstart]
      exact List.take_of_length_le (by rw [List.length_drop]; omega)
    have hdata : frameData f = (f.drop 3).take (f.length - 5) := by
      rw [frameData, slice, heq, Nat.add_sub_cancel_left, Nat.add_sub_cancel]
    have hbad : BadFrame f ↔ crc16 ((f.drop 1).take (f.length - 3)) ≠ f.drop (f.length - 2) :=
      ⟨fun h => h.elim (fun h => absurd h (by omega)) fun h => h.elim (absurd heq) id, fun h => .inr (.inr h)⟩
    rw [if_neg hlen, hcore, hcrc, hdata]
    simp only [hbad]

section
variable {f : Bytes}

theorem checkFrame_noMarker (h : f.head? ≠ some stx) : checkFrame f = .error .unknownResponse :=
  (checkFrame_eq f).trans (if_pos h)

theorem checkFrame_bad (h : f.head? = some stx) (hbad : BadFrame f) : checkFrame f = .error .crcMismatch := by
  rw [checkFrame_eq, if_neg (not_not.mpr h), if_pos hbad]

theorem checkFrame_good (h : f.head? = some stx) (hgood : ¬ BadFrame f) :
    checkFrame f = .ok ((f.drop 3).take (f.length - 5)) := by
  rw [checkFrame_eq, if_neg (not_not.mpr h), if_neg hgood]

end

theorem extractPacket_of_checkFrame_error {f : Bytes} {err : Status} (h : checkFrame f = .error err)
    (key : Option Bytes) (e : Count) : extractPacket f key e = .error err := by
  rw [extractPacket, h]

theorem extractPacket_none (f : Bytes) (e : Count) : extractPacket f none e = checkFrame f := by
  unfold extractPacket
  split
  next h => exact h.symm
  next h => exact h.symm

/-! ### EXTRACT as an operation -/

theorem exec_extract {key : Option Bytes} (hkey : wfOptKey key = true) (f : Bytes) (e : Count) (s : State) :
    exec (.extract f key e) s = .next (s.answer (extractPacket f key e)) :=
  congrArg Host.Outcome.next (if_pos hkey)

theorem exec_extract_illegal {k : Bytes} (hk : k.length ≠ 16) (f : Bytes) (e : Count) (s : State) :
    exec (.extract f (some k) e) s = .next (illegalOp s) :=
  congrArg Host.Outcome.next (if_neg (mt beq_iff_eq.mp hk))

/-- Settles O17: without a key EXTRACT is its tests. -/
theorem extractPlainAnswers : Obligations.ExtractPlainAnswers := by
  intro f e s
  rw [exec_extract rfl, extractPacket_none]
  by_cases hhead : f.head? = some 0x7F
  · rw [if_neg (not_not.mpr hhead)]
    by_cases hbad : BadFrame f
    · rw [if_pos hbad, checkFrame_bad hhead hbad, State.answer_error]
    · rw [if_neg hbad, checkFrame_good hhead hbad, State.answer_ok]
  · rw [if_pos hhead, checkFrame_noMarker hhead, State.answer_error]

section
variable {k c : Bytes}

/-- An envelope without whole blocks cannot be decrypted (rules R191 and R232). -/
theorem openEnvelope_notBlocks (h : c = [] ∨ c.length % 16 ≠ 0) (e : Count) :
    openEnvelope k e c = .error .decryptionFailure := by
  unfold openEnvelope
  split
  · rfl
  next hne =>
    have hmod : c.length % 16 ≠ 0 := h.resolve_left fun hnil => hne (by rw [hnil]; rfl)
    rw [aesDecrypt, if_neg fun hboth => hmod hboth.2]

/-- What decrypts is tested by its counter and its inner length (rules R232 and R233). -/
theorem openEnvelope_decrypted {t : Bytes} (hc : c ≠ []) (hdec : aesDecrypt k c = .ok t) (e : Count) :
    openEnvelope k e c =
      if fromLe ((t.drop 1).take 4) ≠ (e.toNat + 1) % 2 ^ 32 then .error .counterMismatch
      else if (byteAt t 0).toNat + 7 > t.length then .error .decryptionFailure
      else .ok ((t.drop 5).take (byteAt t 0).toNat) := by
  have hcount : (e + 1).toNat = (e.toNat + 1) % 2 ^ 32 := BitVec.toNat_add e 1
  have hslice : slice t 5 (5 + (byteAt t 0).toNat) = (t.drop 5).take (byteAt t 0).toNat := by
    rw [slice, Nat.add_sub_cancel_left]
  rw [openEnvelope, if_neg (mt List.length_eq_zero_iff.mp hc), hdec]
  simp only [hcount, hslice]
  rfl

end

/-- Settles O18: the tests of the frame come before the key is used; on a frame that passes them DATA alone decides. -/
theorem extractWithKeyAnswers : Obligations.ExtractWithKeyAnswers := by
  have hwf : ∀ {k : Bytes}, k.length = 16 → wfOptKey (some k) = true := beq_iff_eq.mpr
  refine ⟨fun f k e s => ⟨fun hk => exec_extract_illegal hk f e s, fun hk hhead => ?_, fun hk hhead hbad => ?_⟩, ?packet⟩
  · rw [exec_extract (hwf hk), extractPacket_of_checkFrame_error (checkFrame_noMarker hhead), State.answer_error]
  · rw [exec_extract (hwf hk), extractPacket_of_checkFrame_error (checkFrame_bad hhead hbad), State.answer_error]
  case packet =>
    intro sb data k e s hdata hk f
    have hexec : exec (.extract f (some k) e) s =
        .next (s.answer (if isEnvelope data then openEnvelope k e (data.drop 1) else .ok data)) := by
      rw [exec_extract (hwf hk), ← extractPacket_packetBody_some hdata sb k e]
      rfl
    have henvelope : ∀ c, data = 0x7E :: c → isEnvelope data = true := by
      rintro c rfl
      rfl
    refine ⟨fun hplain => ?_, fun c hc hbad => ?_, fun c t hc hne hdec => ?_⟩
    · have hnot : ¬ isEnvelope data = true := fun h => hplain (beq_iff_eq.mp h)
      rw [hexec, if_neg hnot, State.answer_ok]
    · rw [hexec, if_pos (henvelope c hc), hc, List.drop_one, List.tail_cons, openEnvelope_notBlocks hbad, State.answer_error]
    · rw [hexec, if_pos (henvelope c hc), hc, List.drop_one, List.tail_cons, openEnvelope_decrypted hne hdec]
      split
      · rfl
      · split <;> rfl

end Sys2Proof.Machine
end

section
/-! PROOF. The Frame Decoder's operations (spec/41_frame_decoder.md): the arms of RX_BYTE, chunks, the flush and the
resynchronisation on a start marker. -/

namespace Sys2Proof.Machine

/-! ### RX_BYTE, arm by arm (rule R161) -/

section
variable {b : Byte} {s : State}

theorem rxByte_idle_ne (h : s.rxs = .idle) (hb : b ≠ stx) : rxByte b s = s := by
  simp [rxByte, h, hb]

/-- A marker right after the first one begins nothing (rule R164). -/
theorem rxByte_lone_stx (h : s.rxs = .inFrame) (hlone : s.rxBuf.length = 1) : rxByte stx s = s.setRx .idle [] := by
  simp [rxByte, h, hlone]

theorem rxByte_frame_stx (h : s.rxs = .inFrame) (hlong : s.rxBuf.length ≠ 1) :
    rxByte stx s = s.setRx .awaitStuff s.rxBuf := by
  simp [rxByte, h, hlong]

theorem rxByte_frame_ne (h : s.rxs = .inFrame) (hb : b ≠ stx) : rxByte b s = appendByte b s := by
  simp [rxByte, h, hb]

theorem rxByte_pending_stx (h : s.rxs = .awaitStuff) : rxByte stx s = appendByte stx s := by
  simp [rxByte, h]

theorem rxByte_pending_ne (h : s.rxs = .awaitStuff) (hb : b ≠ stx) : rxByte b s = s.setRx .inFrame [stx, b] := by
  simp [rxByte, h, hb]

/-- An appended byte completes the frame, which is handed over, or joins it (rules R165 and R168). -/
theorem next_appendByte (b : Byte) (s : State) : Host.Outcome.next (appendByte b s) =
    if 3 ≤ (s.rxBuf ++ [b]).length ∧ (s.rxBuf ++ [b]).length = (byteAt (s.rxBuf ++ [b]) 2).toNat + 5 then
      exec (.frameIn (s.rxBuf ++ [b])) (s.setRx .idle [])
    else .next (s.setRx .inFrame (s.rxBuf ++ [b])) := by
  have hcomplete : frameComplete (s.rxBuf ++ [b]) = true ↔
      3 ≤ (s.rxBuf ++ [b]).length ∧ (s.rxBuf ++ [b]).length = (byteAt (s.rxBuf ++ [b]) 2).toNat + 5 := by
    simp [frameComplete]
  by_cases h : frameComplete (s.rxBuf ++ [b]) = true
  · rw [if_pos (hcomplete.mp h)]
    exact congrArg Host.Outcome.next (appendByte_complete h s.rxs s)
  · rw [if_neg (mt hcomplete.mpr h)]
    exact congrArg Host.Outcome.next (appendByte_incomplete h s.rxs s)

end

theorem exec_rxByte (b : Byte) (s : State) : exec (.rxByte b) s = .next (rxByte b s) :=
  rfl

/-- Settles O20: the three states of the decoder, a marker and another byte in each. -/
theorem rxByteArms : Obligations.RxByteArms := by
  intro b s appended
  refine ⟨fun h hb => ?_, fun h hb => ?_, fun h hl hb => ?_, fun h hl hb => ?_, fun h hb => ?_, fun h hb => ?_,
    fun h hb => ?_⟩ <;> rw [exec_rxByte]
  · rw [rxByte_idle_ne h hb]
  · rw [hb]
    exact congrArg Host.Outcome.next (rxByte_idle_stx h)
  · rw [hb]
    exact congrArg Host.Outcome.next (rxByte_lone_stx h hl)
  · rw [hb]
    exact congrArg Host.Outcome.next (rxByte_frame_stx h hl)
  · rw [rxByte_frame_ne h hb]
    exact next_appendByte b s
  · rw [hb]
    exact (congrArg Host.Outcome.next (rxByte_pending_stx h)).trans (next_appendByte stx s)
  · rw [rxByte_pending_ne h hb]
    rfl

/-- Settles O21: RX_CHUNK is a fold over the bytes, so only their concatenation counts. -/
theorem chunkingDoesNotMatter : Obligations.ChunkingDoesNotMatter := by
  refine ⟨fun _ => rfl, fun _ _ => ⟨_, rfl⟩, fun _ _ _ => ⟨_, rfl, rfl⟩, fun cs ds s h => ?_⟩
  rw [chunks_eq_rxChunk_flatten, chunks_eq_rxChunk_flatten, h]

/-! ### FRAME_IN, arm by arm (rule R255) -/

section
variable {f : Bytes} {s : State}

theorem frameIn_idle (f : Bytes) (h : s.sess = .idle) : frameIn f s = s := by
  rcases frameIn_cases f s with ⟨-, hf⟩ | ⟨c, hs, -⟩ | ⟨p, hs, -⟩
  · exact hf
  · cases h.symm.trans hs
  · cases h.symm.trans hs

theorem sequence_accepted (hlen : 2 ≤ f.length) (hseq : byteAt f 1 = s.oSeq) :
    ¬ (f.length < 2 ∨ byteAt f 1 ≠ s.oSeq) :=
  not_or.mpr ⟨Nat.not_lt.mpr hlen, not_not.mpr hseq⟩

theorem frameIn_rejected {c : Status} (h : s.sess = .awaiting) (hr : FrameRejected f s c) :
    frameIn f s = failAttempt c s := by
  unfold frameIn
  rw [h]
  rcases hr with ⟨hseq, rfl⟩ | ⟨hlen, hseq, hext⟩
  · exact if_pos hseq
  · simp only [sequence_accepted hlen hseq, if_false, hext]

theorem frameIn_accepted {p : Bytes} (h : s.sess = .awaiting) (hlen : 2 ≤ f.length) (hseq : byteAt f 1 = s.oSeq)
    (hext : extractPacket f (sessionKey s) s.eCount = .ok p) :
    frameIn f s = completeCommand p (if countsUp f s then s.countUp else s) := by
  unfold frameIn
  rw [h]
  simp only [sequence_accepted hlen hseq, if_false, hext]

end

/-! ### The flush (rule R171) -/

theorem exec_rxFlush (s : State) : exec .rxFlush s = .next (rxFlush s) :=
  rfl

theorem rxFlush_partial {s : State} (h : s.rxBuf ≠ []) : rxFlush s = frameIn s.rxBuf (s.setRx .idle []) :=
  (rxFlush_cases s).elim And.right fun hempty => absurd hempty.1 h

theorem rxFlush_empty {s : State} (h : s.rxBuf = []) : rxFlush s = s.setRx .idle [] :=
  (rxFlush_cases s).elim (fun hpartial => absurd h hpartial.1) And.right

/-- What an attempt's failure leaves of a waiting session (rule R258). -/
theorem failAttempt_summary {s : State} (c : Status) (h : s.sess = .awaiting) :
    (failAttempt c s).lastCause = c ∧ (failAttempt c s).seq = s.seq ∧ (failAttempt c s).eCount = s.eCount ∧
      completions (failAttempt c s).out = completions s.out ∧
      ((failAttempt c s).sess = .awaiting ↔ s.attempt < s.cfg.commandRetries.val) := by
  rcases Nat.lt_or_ge s.attempt s.cfg.commandRetries.val with hleft | hlast
  · rw [failAttempt_retry c s hleft]
    simp [completions, h, hleft]
  · rw [failAttempt_final c s hlast]
    simp [completions, hlast]

/-- A frame still under assembly passes no test of EXTRACT beyond its marker (rules R24 and R231). -/
theorem checkFrame_partial {s : State} (hinv : DecoderInv s) (h : s.rxBuf ≠ []) :
    checkFrame s.rxBuf = .error .crcMismatch := by
  obtain ⟨hidle, hmarker, -, hshort⟩ := hinv
  have hstx : byteAt s.rxBuf 0 = stx := hmarker fun hrxs => h (hidle.mp hrxs)
  have hhead : s.rxBuf.head? = some stx := by
    by_contra hne
    exact ((head?_ne_stx_iff _).mp hne).elim (fun hlen => h (List.length_eq_zero_iff.mp hlen)) fun hb => hb hstx
  refine checkFrame_bad hhead ?_
  by_cases hlen : s.rxBuf.length < 5
  · exact .inl hlen
  · exact .inr (.inl (hshort (by omega)).ne)

/-- The cause of the attempt that a flushed partial frame costs (rule R414). -/
def flushCause (s : State) : Status :=
  if s.rxBuf.length < 2 ∨ byteAt s.rxBuf 1 ≠ s.oSeq then .sequenceMismatch else .crcMismatch

/-- A partial frame costs a waiting command its attempt (rules R171 and R414). -/
theorem frameRejected_partial {s : State} (hinv : DecoderInv s) (h : s.rxBuf ≠ []) :
    FrameRejected s.rxBuf (s.setRx .idle []) (flushCause s) := by
  by_cases hseq : s.rxBuf.length < 2 ∨ byteAt s.rxBuf 1 ≠ s.oSeq
  · exact .inl ⟨hseq, if_pos hseq⟩
  · obtain ⟨hlen, heq⟩ := not_or.mp hseq
    rw [flushCause, if_neg hseq]
    exact .inr ⟨Nat.le_of_not_lt hlen, not_not.mp heq,
      extractPacket_of_checkFrame_error (checkFrame_partial hinv h) _ _⟩

/-- Settles O22: the flush is the hand-off of the buffer; in flight what it hands over is rejected. -/
theorem flushHandsOverThePartialFrame : Obligations.FlushHandsOverThePartialFrame := by
  refine ⟨fun s => ⟨fun h => ?_, fun h hs => ?_, fun h => ?_⟩, fun s hsound hs h => ?_⟩
  · rw [exec_rxFlush, rxFlush_partial h]
    rfl
  · rw [exec_rxFlush, rxFlush_partial h, frameIn_idle (s := s.setRx .idle []) _ hs]
    rfl
  · rw [exec_rxFlush, rxFlush_empty h, ← h]
    rfl
  · obtain ⟨hinv, -, -⟩ := hsound
    refine ⟨_, exec_rxFlush s, ?_⟩
    rw [rxFlush_partial h, frameIn_rejected (s := s.setRx .idle []) hs (frameRejected_partial hinv h)]
    obtain ⟨hcause, hseq, hcount, hcompleted, hsess⟩ := failAttempt_summary (s := s.setRx .idle []) (flushCause s) hs
    obtain ⟨hrxs, hbuf⟩ := failAttempt_rx (flushCause s) (s.setRx .idle [])
    exact ⟨hcause, hrxs, hbuf, hseq, hcount, hcompleted, hsess⟩

/-! ### Resynchronisation (rule R172) -/

/-- An appended byte leaves the decoder empty and IDLE, or in the longer frame (rules R165 and R168). -/
theorem appendByte_rx (b : Byte) (s : State) :
    ((appendByte b s).rxs = .idle ∧ (appendByte b s).rxBuf = []) ∨
      (frameComplete (s.rxBuf ++ [b]) = false ∧ (appendByte b s).rxs = .inFrame ∧
        (appendByte b s).rxBuf = s.rxBuf ++ [b]) := by
  by_cases h : frameComplete (s.rxBuf ++ [b]) = true
  · rw [show appendByte b s = _ from appendByte_complete h s.rxs s]
    exact .inl (frameIn_rx _ _)
  · rw [show appendByte b s = _ from appendByte_incomplete h s.rxs s]
    exact .inr ⟨by simpa using h, rfl, rfl⟩

/-- The states from which a marker and another byte begin a new frame. -/
def MarkerBegins (s : State) : Prop :=
  s.rxs = .idle ∨ (s.rxs = .inFrame ∧ 2 ≤ s.rxBuf.length)

/-- The decoder holds a marker and one byte of a new frame. -/
def BeginsFrame (y : Byte) (s : State) : Prop :=
  s.rxs = .inFrame ∧ s.rxBuf = [stx, y]

section
variable {x y : Byte} {s : State}

theorem beginsFrame_of_markerBegins (hy : y ≠ stx) (h : MarkerBegins s) :
    BeginsFrame y (rxByte y (rxByte stx s)) := by
  rcases h with hidle | ⟨hframe, hlong⟩
  · have hincomplete : ¬ frameComplete ([stx] ++ [y]) = true := by simp [frameComplete]
    rw [rxByte_idle_stx hidle, rxByte_inFrame_data hy, appendByte_incomplete hincomplete]
    exact ⟨rfl, rfl⟩
  · rw [rxByte_frame_stx hframe (by omega), rxByte_pending_ne rfl hy]
    exact ⟨rfl, rfl⟩

/-- After any byte that is no marker the decoder is IDLE or in a frame of two bytes at least. -/
theorem markerBegins_rxByte_ne (hinv : DecoderInv s) (hx : x ≠ stx) : MarkerBegins (rxByte x s) := by
  obtain ⟨hidle, -⟩ := hinv
  cases hrxs : s.rxs with
  | idle => exact .inl (by rw [rxByte_idle_ne hrxs hx, hrxs])
  | inFrame =>
    have hpos : s.rxBuf.length ≠ 0 := fun hlen => by
      cases hrxs.symm.trans (hidle.mpr (List.length_eq_zero_iff.mp hlen))
    rw [rxByte_frame_ne hrxs hx]
    refine (appendByte_rx x s).imp And.left fun ⟨_, hframe, hbuf⟩ => ⟨hframe, ?_⟩
    rw [hbuf, List.length_append, List.length_singleton]
    omega
  | awaitStuff =>
    rw [rxByte_pending_ne hrxs hx]
    exact .inr ⟨rfl, Nat.le_refl 2⟩

/-- From the other sound states a marker is read as data, or ends the frame, and no new frame begins. -/
theorem markerBegins_of_beginsFrame (hinv : DecoderInv s) (hy : y ≠ stx)
    (h : BeginsFrame y (rxByte y (rxByte stx s))) : MarkerBegins s := by
  obtain ⟨hidle, -, hpending, -⟩ := hinv
  obtain ⟨hrxs', hbuf'⟩ := h
  cases hrxs : s.rxs with
  | idle => exact .inl hrxs
  | inFrame =>
    by_cases hlone : s.rxBuf.length = 1
    · rw [rxByte_lone_stx hrxs hlone, rxByte_idle_ne rfl hy] at hrxs'
      cases hrxs'
    · have hpos : s.rxBuf.length ≠ 0 := fun hlen => by
        cases hrxs.symm.trans (hidle.mpr (List.length_eq_zero_iff.mp hlen))
      exact .inr ⟨hrxs, by omega⟩
  | awaitStuff =>
    have hlong := hpending hrxs
    rw [rxByte_pending_stx hrxs] at hrxs' hbuf'
    rcases appendByte_rx stx s with ⟨hdone, -⟩ | ⟨-, hframe, hbuf⟩
    · rw [rxByte_idle_ne hdone hy, hdone] at hrxs'
      cases hrxs'
    · rw [rxByte_frame_ne hframe hy] at hrxs' hbuf'
      rcases appendByte_rx y (appendByte stx s) with ⟨hdone, -⟩ | ⟨-, -, hbuf2⟩
      · cases hdone.symm.trans hrxs'
      · have hlen := congrArg List.length (hbuf2.symm.trans hbuf')
        rw [hbuf] at hlen
        simp only [List.length_append, List.length_cons, List.length_nil] at hlen
        omega

end

/-- Settles O24: after a byte that is no marker every sound state is one from which `7F y` begins a frame, and no other
sound state is. -/
theorem markerResynchronises : Obligations.MarkerResynchronises := by
  intro s x y hinv hx hy
  refine ⟨⟨_, rfl, beginsFrame_of_markerBegins hy (markerBegins_rxByte_ne hinv hx)⟩, _, rfl, ?_⟩
  exact ⟨markerBegins_of_beginsFrame hinv hy, beginsFrame_of_markerBegins hy⟩

end Sys2Proof.Machine
end

section
/-! PROOF. The session's operations (spec/44_session.md): EXEC's refusals and admissions, the key, FRAME_IN and TIMEOUT. -/

namespace Sys2Proof.Machine

/-! ### EXEC's tests, in their order (rules R251, R253 and R371) -/

theorem exec_exec (flags : CmdFlags) (code : Byte) (args : Bytes) (s : State) :
    exec (.exec flags code args) s = .next (startCommand flags code args s).1 :=
  rfl

section
variable {flags : CmdFlags} {args : Bytes} {s : State} (code : Byte)

theorem startCommand_busy (hproc : s.proc = true) :
    startCommand flags code args s = refuseCommand .alreadyProcessing s := by
  simp [startCommand, hproc]

theorem startCommand_unknown (hproc : s.proc = false) (hknown : flags.known = false) :
    startCommand flags code args s = refuseCommand .unknownCommand s := by
  simp [startCommand, hproc, hknown]

theorem startCommand_keyless (hproc : s.proc = false) (hknown : flags.known = true) (hreq : flags.reqEnc = true)
    (hkey : s.keyV = false) : startCommand flags code args s = refuseCommand .encryptionRequired s := by
  simp [startCommand, hproc, hknown, hreq, hkey]

/-- Past the tests the packet is built; a SYNC has set SEQ before it (rule R267). -/
theorem startCommand_sends (hproc : s.proc = false) (hknown : flags.known = true)
    (hkey : flags.reqEnc = true → s.keyV = true) :
    startCommand flags code args s = sendCommand flags code args (s.setSeq (flags.isSync || s.seq)) := by
  have hallowed : ¬ (flags.reqEnc && !s.keyV) = true := by
    simpa using hkey
  have hseq : (if flags.isSync then s.setSeq true else s) = s.setSeq (flags.isSync || s.seq) := by
    cases flags.isSync <;> rfl
  simp only [startCommand, hproc, hknown, hallowed, hseq, Bool.not_true, Bool.false_eq_true, if_false]

theorem sendCommand_refuses {e : Status}
    (h : buildPadLen flags.reqArgs args (commandKey flags s) = .error e) :
    sendCommand flags code args s = refuseCommand e s := by
  rw [sendCommand, buildWithDraw_error code _ _ h]

theorem sendCommand_admits {packet : Bytes} {u : State}
    (h : buildWithDraw flags.reqArgs code args (outboundSeq s) (commandKey flags s) s.eCount s = (.ok packet, u)) :
    sendCommand flags code args s = admitCommand packet (outboundSeq s) u := by
  rw [sendCommand, h]

end

/-- The key EXEC gives BUILD: the session's where one is installed and the command or ENCRYPT_ALL asks for it
(rule R252). -/
theorem commandKey_eq (flags : CmdFlags) (s : State) : commandKey flags s =
    if s.keyV = true ∧ (flags.reqEnc = true ∨ s.cfg.encryptAll = true) then some s.key else none := by
  simp [commandKey, encryptionApplies]

/-- The sequence byte as a number (rule R103). -/
theorem seqByte_eq_ofNat (seq : Bool) (d : BitVec 4) :
    seqByte seq d = BitVec.ofNat 8 ((if seq then 0x80 else 0x00) + d.toNat) := by
  revert seq d
  decide

theorem next_refuseCommand (e : Status) (s : State) : Host.Outcome.next (φ := Fault) (ρ := Refusal) (refuseCommand e s).1 =
    .next { s with out := s.out ++ [.res (.error e)] } :=
  rfl

/-- Settles O25: the three tests of EXEC, then the two of BUILD, which runs after a SYNC has set SEQ. -/
theorem execRefusals : Obligations.ExecRefusals := by
  intro flags code args s limit
  refine ⟨fun hp => ?_, fun hp hk => ?_, fun hp hk hr hv => ?_, fun hp hk hr hreq hargs => ?_, fun hp hk hr hlong => ?_⟩ <;>
    rw [exec_exec]
  · rw [startCommand_busy code hp, next_refuseCommand]
  · rw [startCommand_unknown code hp hk, next_refuseCommand]
  · rw [startCommand_keyless code hp hk hr hv, next_refuseCommand]
  · rw [startCommand_sends code hp hk hr, sendCommand_refuses code (buildPadLen_argsRequired hreq hargs),
      next_refuseCommand]
    rfl
  · have hlimit : payloadLimit (commandKey flags (s.setSeq (flags.isSync || s.seq))) = limit + 1 := by
      rw [show commandKey flags (s.setSeq (flags.isSync || s.seq)) = commandKey flags s from rfl, commandKey_eq]
      unfold limit
      split <;> rfl
    rw [startCommand_sends code hp hk hr, sendCommand_refuses code (buildPadLen_tooLong (by omega)), next_refuseCommand]
    rfl

/-- Settles O26: no key is used, so BUILD answers the payload's packet without a draw. -/
theorem execAdmitsInTheClear : Obligations.ExecAdmitsInTheClear := by
  intro flags code args s hproc hknown hkey hclear hargs hfits seq sb core packet
  have hsb : sb = seqByte seq s.cfg.deviceId := (seqByte_eq_ofNat seq _).symm
  have hnone : commandKey flags (s.setSeq seq) = none := by
    rw [commandKey_eq]
    refine if_neg fun ⟨hv, huse⟩ => ?_
    obtain ⟨hreq, hall⟩ := hclear hv
    exact huse.elim (absurd · (by simp [hreq])) (absurd · (by simp [hall]))
  have hdraw : buildWithDraw flags.reqArgs code args (outboundSeq (s.setSeq seq)) (commandKey flags (s.setSeq seq))
      (s.setSeq seq).eCount (s.setSeq seq) = (.ok (wirePacket sb (code :: args)), s.setSeq seq) := by
    rw [hnone, hsb]
    exact buildWithDraw_none code _ _ hargs hfits _
  rw [exec_exec, startCommand_sends code hproc hknown hkey, sendCommand_admits code hdraw, admitCommand_eq,
    show outboundSeq (s.setSeq seq) = sb from hsb.symm]
  rfl

/-- Settles O27: the session's key is used, so BUILD draws its padding and answers the envelope's packet. -/
theorem execAdmitsEncrypted : Obligations.ExecAdmitsEncrypted := by
  intro flags code args s hproc hknown hv hlen huse hargs hfits seq sb
  have hsb : sb = seqByte seq s.cfg.deviceId := (seqByte_eq_ofNat seq _).symm
  have hkey : commandKey flags (s.setSeq seq) = some s.key :=
    (commandKey_eq flags (s.setSeq seq)).trans (if_pos ⟨hv, huse⟩)
  obtain ⟨pad, c, q, n, hpad, -, hbuild, hdraw⟩ :=
    buildWithDraw_some code sb s.eCount hlen hargs hfits (s.setSeq seq)
  have hdraw' : buildWithDraw flags.reqArgs code args (outboundSeq (s.setSeq seq)) (commandKey flags (s.setSeq seq))
      (s.setSeq seq).eCount (s.setSeq seq) = (.ok (wirePacket sb (stex :: c)), (s.setSeq seq).setDraws q n) := by
    rw [hkey, ← hdraw, hsb]
    rfl
  refine ⟨pad, wirePacket sb (stex :: c), q, n, hpad, hbuild, ?_⟩
  rw [exec_exec, startCommand_sends code hproc hknown fun _ => hv, sendCommand_admits code hdraw', admitCommand_eq, hsb]
  rfl

/-- Settles O28: a key operand of 16 bytes is loaded, any other is an illegal record. -/
theorem keyInstallLoadsTheKey : Obligations.KeyInstallLoadsTheKey := by
  intro key s
  refine ⟨fun hlen => ?_, fun hlen => ?_⟩
  · exact congrArg Host.Outcome.next (if_pos (beq_iff_eq.mpr hlen))
  · exact congrArg Host.Outcome.next (if_neg (mt beq_iff_eq.mp hlen))

/-! ### FRAME_IN and TIMEOUT (rules R255, R258 and R262) -/

/-- The counter goes up while a key is active and DATA begins with the envelope's marker (rule R257). -/
theorem countsUp_iff (f : Bytes) (s : State) :
    countsUp f s = true ↔ s.keyV = true ∧ 1 ≤ (byteAt f 2).toNat ∧ byteAt f 3 = 0x7E := by
  simp [countsUp, stex]

/-- Settles O30: past the tests the command completes, on the counter that DATA and the key decide. -/
theorem frameInAccepts : Obligations.FrameInAccepts := by
  intro f p s hs hlen hseq hext
  have hframe : exec (.frameIn f) s = .next (completeCommand p (if countsUp f s then s.countUp else s)) :=
    congrArg Host.Outcome.next (frameIn_accepted hs hlen hseq hext)
  rw [hframe, completeCommand_eq]
  by_cases hup : countsUp f s = true
  · rw [if_pos hup, if_pos ((countsUp_iff f s).mp hup)]
    rfl
  · rw [if_neg hup, if_neg (mt (countsUp_iff f s).mpr hup)]

/-- Settles O31: a rejected frame fails the attempt with its cause; IDLE drops every frame. -/
theorem frameInRejectsOrDrops : Obligations.FrameInRejectsOrDrops := by
  refine ⟨fun f c s hs hr => ?_, fun f s hs => congrArg Host.Outcome.next (frameIn_idle f hs)⟩
  have hframe : exec (.frameIn f) s = .next (failAttempt c s) :=
    congrArg Host.Outcome.next (frameIn_rejected hs hr)
  rw [hframe]
  exact ⟨fun hleft => by rw [failAttempt_retry c s hleft], fun hlast => by rw [failAttempt_final c s hlast]⟩

/-- Settles O32: an expiry is a failed attempt while the timer is armed, and nothing otherwise. -/
theorem timeoutActsOnlyWhileArmed : Obligations.TimeoutActsOnlyWhileArmed := by
  intro s
  have harmed : s.tmr = true → exec .timeout s = .next (failAttempt .timeout s) :=
    fun h => congrArg Host.Outcome.next (if_pos h)
  refine ⟨fun h hleft => ?_, fun h hlast => ?_, fun h => ?_⟩
  · rw [harmed h, failAttempt_retry .timeout s hleft]
  · rw [harmed h, failAttempt_final .timeout s hlast]
  · exact congrArg Host.Outcome.next (if_neg (by simp [h]))

/-! ### Responses, from bytes on the line to the record on RES -/

/-- Bits 6 to 4 of OSEQ are zero, so it is no start marker (rules R32 and R103). -/
theorem oSeq_ne_stx {s : State} (h : SessionInv s) : s.oSeq ≠ stx := by
  obtain ⟨-, -, -, -, hbits, -⟩ := h
  intro hstx
  rw [hstx] at hbits
  exact absurd hbits (by decide)

/-- The wire packet of DATA, in any chunking, is one frame handed to a sound session that waits with an IDLE decoder
(rule R173). -/
theorem chunks_wirePacket {s : State} (hsound : Sound s) (hrxs : s.rxs = .idle) {data : Bytes}
    (hdata : data.length ≤ 255) {cs : List Bytes} (hcs : cs.flatten = wirePacket s.oSeq data) :
    chunks cs s = frameIn (stx :: packetBody s.oSeq data) s := by
  obtain ⟨⟨hidle, -⟩, hsession, -⟩ := hsound
  rw [chunks_eq_rxChunk_flatten, hcs]
  exact rxChunk_wire hrxs (hidle.mp hrxs) (packetBody_length_eq_lengthByte hdata _) (oSeq_ne_stx hsession)

/-- Of a packet's frame the counter goes up while a key is active and DATA is an envelope (rule R257). -/
theorem countsUp_packetBody {data : Bytes} (hdata : data.length ≤ 255) (sb : Byte) (s : State) :
    countsUp (stx :: packetBody sb data) s = (s.keyV && isEnvelope data) := by
  have hlen : (byteAt (stx :: packetBody sb data) 2).toNat = data.length := toNat_ofNat_eight hdata
  rw [countsUp, hlen]
  cases data with
  | nil => rfl
  | cons b data =>
    have hfirst : byteAt (stx :: packetBody sb (b :: data)) 3 = b := rfl
    simp [hfirst, isEnvelope]

/-- Settles O34: the packet is one frame, EXTRACT gives its DATA with and without a key, and the counter stays. -/
theorem plainResponseCompletesTheCommand : Obligations.PlainResponseCompletesTheCommand := by
  intro s data cs hsound hs hrxs hdata hplain hcs
  have henvelope : s.keyV = true → ¬ isEnvelope data = true := fun hv h => hplain hv (beq_iff_eq.mp h)
  have hext : extractPacket (stx :: packetBody s.oSeq data) (sessionKey s) s.eCount = .ok data := by
    unfold sessionKey
    split
    next hv => rw [extractPacket_packetBody_some hdata, if_neg (henvelope hv)]
    next => exact extractPacket_packetBody_none hdata _ _
  have hstay : ¬ countsUp (stx :: packetBody s.oSeq data) s = true := by
    rw [countsUp_packetBody hdata]
    exact fun h => henvelope (Bool.and_eq_true_iff.mp h).1 (Bool.and_eq_true_iff.mp h).2
  have hlen : 2 ≤ (stx :: packetBody s.oSeq data).length := by
    rw [List.length_cons, packetBody_length]
    omega
  rw [chunks_wirePacket hsound hrxs hdata hcs, frameIn_accepted hs hlen rfl hext, if_neg hstay, completeCommand_eq]

/-- Settles O35: the packet is one frame whose envelope opens by its counter alone. -/
theorem encryptedResponseAdvancesTheCounter : Obligations.EncryptedResponseAdvancesTheCounter := by
  intro s code args pad w e cs hsound hs hrxs hv hpad hbuild hcs
  have ⟨_, _, _, _, hkey⟩ := hsound
  obtain ⟨c, henc, rfl, hpayload⟩ := buildPacket_some_ok hbuild
  obtain ⟨hdec, hlen⟩ := aesDecrypt_of_aesEncrypt_innerPlain hkey hpad henc
  have hdata : (stex :: c).length ≤ 255 := by
    rw [List.length_cons, hlen, padLen]
    omega
  have hframe : 2 ≤ (stx :: packetBody s.oSeq (stex :: c)).length := by
    rw [List.length_cons, packetBody_length]
    omega
  have hext : extractPacket (stx :: packetBody s.oSeq (stex :: c)) (sessionKey s) s.eCount =
      if s.eCount + 1 = e then .ok (code :: args) else .error .counterMismatch := by
    have henvelope : isEnvelope (stex :: c) = true := (isEnvelope_cons stex c).mpr rfl
    rw [show sessionKey s = some s.key from if_pos hv, extractPacket_packetBody_some hdata, if_pos henvelope]
    exact openEnvelope_innerPlain (by omega) (by omega) hdec s.eCount
  have hup : countsUp (stx :: packetBody s.oSeq (stex :: c)) s = true := by
    rw [countsUp_packetBody hdata, hv]
    rfl
  rw [chunks_wirePacket hsound hrxs hdata hcs]
  refine ⟨fun heq => ?_, fun hne => ?_⟩
  · rw [frameIn_accepted hs hframe rfl (hext.trans (if_pos heq.symm)), if_pos hup, completeCommand_eq]
    rfl
  · have hrejected : FrameRejected (stx :: packetBody s.oSeq (stex :: c)) s .counterMismatch :=
      .inr ⟨hframe, rfl, hext.trans (if_neg fun heq => hne heq.symm)⟩
    rw [frameIn_rejected hs hrejected]
    obtain ⟨hcause, hseq, hcount, hcompleted, -⟩ := failAttempt_summary .counterMismatch hs
    exact ⟨hcause, hcount, hseq, hcompleted⟩

end Sys2Proof.Machine
end

section
/-! PROOF. Two runs side by side.  A relation of two states that agree on what the host reads, and that every small move
and the start of a command keep, is kept by everything the host does except the installation of a key. -/

namespace Sys2Proof.Machine

/-- Such a relation.  With equal states on both sides it is an invariant of one run. -/
structure Alike (R : State → State → Prop) : Prop where
  host : ∀ {s u}, R s u → u.host = s.host
  proc : ∀ {s u}, R s u → u.proc = s.proc
  cfg : ∀ {s u}, R s u → u.cfg = s.cfg
  out : ∀ {s u}, R s u → u.out = s.out
  draws : ∀ {s u}, R s u → u.draws = s.draws
  drawCount : ∀ {s u}, R s u → u.drawCount = s.drawCount
  setHost : ∀ {s u}, R s u → ∀ h, R (s.setHost h) (u.setHost h)
  setDraws : ∀ {s u}, R s u → ∀ q n, R (s.setDraws q n) (u.setDraws q n)
  respond : ∀ {s u}, R s u → ∀ r, R (s.respond r) (u.respond r)
  start : ∀ {s u}, R s u → ∀ flags code args,
    (startCommand flags code args u).2 = (startCommand flags code args s).2 ∧
      R (startCommand flags code args s).1 (startCommand flags code args u).1

section
variable {R : State → State → Prop} (hR : Alike R) {s u : State} (h : R s u)
include hR h

/-! ### The host's variables and the draws -/

theorem Alike.updateHost (f : HostSide → HostSide) : R (s.setHost (f s.host)) (u.setHost (f u.host)) := by
  rw [hR.host h]
  exact hR.setHost h _

theorem Alike.addResult (r : HostResult) : R (s.addResult r) (u.addResult r) :=
  hR.updateHost h fun x => { x with results := x.results ++ [r] }

theorem Alike.addTask (t : Task) : R (s.addTask t) (u.addTask t) :=
  hR.updateHost h fun x => { x with tasks := x.tasks ++ [t] }

theorem Alike.dropTask (k : Nat) : R (s.dropTask k) (u.dropTask k) :=
  hR.updateHost h fun x => { x with tasks := x.tasks.eraseIdx k }

theorem Alike.notify (es : List HostEvent) : R (s.notify es) (u.notify es) :=
  hR.updateHost h fun x => { x with events := x.events ++ es }

theorem Alike.setEnabled (b : Bool) : R (s.setEnabled b) (u.setEnabled b) :=
  hR.updateHost h fun x => { x with enabled := b }

theorem Alike.draw : u.draw.1 = s.draw.1 ∧ R s.draw.2 u.draw.2 := by
  unfold State.draw
  rw [hR.draws h, hR.drawCount h]
  split
  · exact ⟨rfl, hR.setDraws h _ _⟩
  · exact ⟨rfl, hR.setDraws h _ _⟩

theorem Alike.drawBytes (n : Nat) : (u.drawBytes n).1 = (s.drawBytes n).1 ∧ R (s.drawBytes n).2 (u.drawBytes n).2 := by
  induction n generalizing s u with
  | zero => exact ⟨rfl, h⟩
  | succ n ih =>
    obtain ⟨hfirst, hdraw⟩ := hR.draw h
    obtain ⟨hrest, hlast⟩ := ih hdraw
    exact ⟨by rw [State.drawBytes, State.drawBytes, hfirst, hrest], hlast⟩

/-! ### What a procedure does with an outcome -/

theorem Alike.applyPoll (desired : Bool) : R (applyPoll desired s) (applyPoll desired u) := by
  rw [applyPoll_eq, applyPoll_eq]
  exact hR.updateHost h fun x =>
    { x with polling := desired, pollScheduled := desired && (!x.polling || x.pollScheduled) }

theorem Alike.returnEnabling (o : Option CmdOutcome) : R (returnEnabling o s) (returnEnabling o u) := by
  cases o with
  | none => exact h
  | some o => exact hR.addResult h _

theorem Alike.requestPoll (desired : Bool) (o : Option CmdOutcome) :
    R (requestPoll desired o s) (requestPoll desired o u) := by
  unfold Machine.requestPoll
  rw [hR.proc h]
  split
  · exact hR.addTask h _
  · exact hR.returnEnabling (hR.applyPoll h desired) o

theorem Alike.finishPollCycle (o : CmdOutcome) : R (finishPollCycle o s) (finishPollCycle o u) := by
  have stop : R ((s.setPolling false s.host.pollScheduled).notify [.error o])
      ((u.setPolling false u.host.pollScheduled).notify [.error o]) :=
    hR.updateHost h fun x => { x with polling := false, events := x.events ++ [.error o] }
  cases o with
  | decoded d =>
    have hevents := hR.notify h (d.info.events.map .poll)
    unfold Machine.finishPollCycle
    simp only
    rw [hR.host hevents]
    split
    · exact hR.updateHost hevents fun x => { x with polling := true, pollScheduled := true }
    · exact hevents
  | _ => exact stop

theorem Alike.finishTask (name : CommandName) (k : Continuation) (o : CmdOutcome) :
    R (finishTask name k o s) (finishTask name k o u) := by
  cases k with
  | report => exact hR.addResult h _
  | initStep n kp =>
    unfold Machine.finishTask
    simp only
    split
    · split
      · exact hR.addTask h _
      · exact hR.addResult h _
    · exact hR.addResult h _
  | enable =>
    unfold Machine.finishTask
    simp only
    split
    · exact hR.requestPoll (hR.setEnabled h true) true _
    · exact hR.addResult h _
  | disable =>
    unfold Machine.finishTask
    simp only
    split
    · exact hR.addResult (hR.setEnabled h false) _
    · exact hR.addResult h _
  | pollCycle => exact hR.finishPollCycle h o

/-! ### The host's commands -/

theorem Alike.issueExec (name : CommandName) (args : List Nat) :
    (issueExec name args u).2 = (issueExec name args s).2 ∧
      R (issueExec name args s).1 (issueExec name args u).1 := by
  unfold Machine.issueExec
  rw [hR.cfg h, hR.host h]
  split
  · exact ⟨rfl, h⟩
  · next bytes _ =>
    obtain ⟨hstatus, hstate⟩ :=
      hR.start h (commandDescriptor s.cfg name).1 (commandDescriptor s.cfg name).2 bytes
    simp only
    rw [hstatus]
    split
    · exact ⟨rfl, hstate⟩
    · exact ⟨rfl, hstate⟩

theorem Alike.issueCommand (name : CommandName) (args : List Nat) (k : Continuation) :
    R (issueCommand name args k s) (issueCommand name args k u) := by
  obtain ⟨houtcome, hstate⟩ := hR.issueExec h name args
  unfold Machine.issueCommand
  simp only
  rw [houtcome, hR.out hstate]
  split
  · exact hR.addTask hstate _
  · exact hR.finishTask hstate _ _ _

theorem Alike.disableStopped : R (disableStopped s) (disableStopped u) :=
  hR.issueCommand (hR.applyPoll h false) _ _ _

theorem Alike.pollTimer : R (pollTimer s) (pollTimer u) := by
  have hscheduled : R (s.setPolling s.host.polling false) (u.setPolling s.host.polling false) := by
    rw [State.setPolling_eq, State.setPolling_eq, hR.host h]
    exact hR.setHost h _
  unfold Machine.pollTimer
  rw [hR.host h]
  split
  · simp only
    rw [hR.host hscheduled]
    split
    · exact hR.issueCommand hscheduled _ _ _
    · exact hscheduled
  · exact h

theorem Alike.generateKeys :
    (generateKeys u).1 = (generateKeys s).1 ∧ R (generateKeys s).2 (generateKeys u).2 := by
  obtain ⟨h1, hs1⟩ := hR.draw h
  obtain ⟨h2, hs2⟩ := hR.draw hs1
  obtain ⟨h3, hs3⟩ := hR.draw hs2
  unfold Machine.generateKeys
  simp only
  rw [h1, h2]
  split
  · exact ⟨rfl, hs2⟩
  · rw [h3]
    exact ⟨rfl, hR.updateHost hs3 fun x => { x with
      generator := some _, modulus := some _, hostRandom := some _, hostInter := some _ }⟩

/-- What a response teaches, when it is no key exchange's. -/
theorem Alike.responseEffect {name : CommandName} (hname : name ≠ .requestKeyExchange) (d : Decoded) :
    (responseEffect name d u).1 = (responseEffect name d s).1 ∧
      R (responseEffect name d s).2 (responseEffect name d u).2 := by
  have learn : ∀ c : Prop, [Decidable c] → ∀ f : HostSide → HostSide,
      R (if c then s.setHost (f s.host) else s) (if c then u.setHost (f u.host) else u) := by
    intro c _ f
    split
    · exact hR.updateHost h f
    · exact h
  cases name with
  | requestKeyExchange => exact absurd rfl hname
  | setupRequest | unitData => exact ⟨rfl, learn (d.success = true) fun x => { x with
      protocolVersion := d.info.protocolVersion.or x.protocolVersion, unitType := d.info.unitType.or x.unitType }⟩
  | hostProtocolVersion =>
    unfold Machine.responseEffect
    refine ⟨rfl, ?_⟩
    simp only
    split
    · exact h
    · exact hR.updateHost h fun x => { x with protocolVersion := none }
  | _ => exact ⟨rfl, h⟩

theorem Alike.finishPayload {name : CommandName} (hname : name ≠ .requestKeyExchange) (k : Continuation)
    (payload : Bytes) : R (finishPayload name k payload s) (finishPayload name k payload u) := by
  unfold Machine.finishPayload
  simp only
  rw [hR.cfg h, hR.host h]
  obtain ⟨hresult, hstate⟩ := hR.responseEffect h hname
    (decodeResponse s.cfg payload name s.host.protocolVersion s.host.unitType)
  rw [hresult]
  split
  · exact hR.finishTask hstate _ _ _
  · exact hR.finishTask hstate _ _ _

/-- Going on with a procedure other than one that waits for a key exchange. -/
theorem Alike.hostRun {k : Nat}
    (hk : ∀ c mark, s.host.tasks[k]? ≠ some (.awaiting .requestKeyExchange c mark)) :
    R (hostRun k s) (hostRun k u) := by
  unfold Machine.hostRun
  rw [hR.host h]
  split
  · exact h
  · next t ht =>
    have hdropped := hR.dropTask h k
    cases t with
    | pollWait desired o =>
      unfold resumeTask
      simp only
      rw [hR.proc h]
      split
      · exact h
      · exact hR.returnEnabling (hR.applyPoll hdropped desired) o
    | disableWait =>
      unfold resumeTask
      simp only
      rw [hR.proc h]
      split
      · exact h
      · exact hR.disableStopped hdropped
    | initIssue n kp => exact hR.issueCommand hdropped _ _ _
    | awaiting name c mark =>
      unfold resumeTask
      simp only
      rw [hR.out h]
      split
      · exact h
      · exact hR.finishPayload hdropped (fun hname => hk c mark (hname ▸ ht)) _ _
      · exact hR.finishTask hdropped _ _ _

/-! ### Operations -/

theorem Alike.answer (r : Except Status Bytes) : R (s.answer r) (u.answer r) := by
  cases r with
  | ok data => exact hR.respond h _
  | error e => exact hR.respond h _

theorem Alike.buildWithDraw (reqArgs : Bool) (code : Byte) (args : Bytes) (sb : Byte) (key : Option Bytes) (e : Count) :
    (buildWithDraw reqArgs code args sb key e u).1 = (buildWithDraw reqArgs code args sb key e s).1 ∧
      R (buildWithDraw reqArgs code args sb key e s).2 (buildWithDraw reqArgs code args sb key e u).2 := by
  unfold Machine.buildWithDraw
  split
  · exact ⟨rfl, h⟩
  · obtain ⟨hpad, hstate⟩ := hR.drawBytes h _
    simp only
    rw [hpad]
    exact ⟨rfl, hstate⟩

/-- A pure operation, an EXEC and every operation of the host keep the relation; INIT_ENCRYPTION does where clearing the
key does. -/
theorem Alike.exec {i : Instr}
    (hi : portOf i = .host ∨ opcode i ∈ ([0x01, 0x02, 0x04, 0x05, 0x08, 0x09, 0x10] : Bytes))
    (hclear : i = .initEncryption → ∀ {s u}, R s u → R (clearKey s) (clearKey u)) :
    ∃ t v, exec i s = .next t ∧ exec i u = .next v ∧ R t v := by
  cases i with
  | crc16 data | stuff data => exact ⟨_, _, rfl, rfl, hR.respond h _⟩
  | aesEnc key data | aesDec key data => exact ⟨_, _, rfl, rfl, hR.answer h _⟩
  | build flags code sb key e args =>
    obtain ⟨hresult, hstate⟩ := hR.buildWithDraw h flags.reqArgs code args sb key e
    refine ⟨_, _, rfl, rfl, ?_⟩
    split
    · simp only
      rw [hresult]
      exact hR.answer hstate _
    · exact hR.respond h _
  | extract f key e =>
    refine ⟨_, _, rfl, rfl, ?_⟩
    split
    · exact hR.answer h _
    · exact hR.respond h _
  | exec flags code args => exact ⟨_, _, rfl, rfl, (hR.start h flags code args).2⟩
  | genKeypair =>
    obtain ⟨hresult, hstate⟩ := hR.generateKeys h
    refine ⟨_, _, rfl, rfl, ?_⟩
    rw [hresult]
    exact hR.addResult hstate _
  | deriveKey bytes fixedKey r m =>
    refine ⟨_, _, rfl, rfl, ?_⟩
    split
    · next d _ => exact hR.addResult (hR.updateHost h fun x => { x with
        slaveInterKey := some d.slaveInterKey, key := some d.key }) _
    · exact hR.addResult h _
  | initEncryption =>
    obtain ⟨hresult, hstate⟩ := hR.generateKeys h
    refine ⟨_, _, rfl, rfl, ?_⟩
    unfold startInitEncryption
    simp only
    rw [hresult]
    split
    · exact hR.addTask (hclear rfl hstate) _
    · exact hR.addResult hstate _
  | enable => exact ⟨_, _, rfl, rfl, hR.issueCommand h _ _ _⟩
  | disable =>
    refine ⟨_, _, rfl, rfl, ?_⟩
    rw [hR.proc h]
    split
    · exact hR.addTask h _
    · exact hR.disableStopped h
  | poll desired => exact ⟨_, _, rfl, rfl, hR.requestPoll h desired none⟩
  | _ => simp [portOf, opcode] at hi

end

end Sys2Proof.Machine
end

section
/-! PROOF. What an operation reads, and what it can reach.  EXEC reads a few registers only; two runs that differ elsewhere stay
alike.  From this: KEY while it is absent, the last command's registers while IDLE, who sets KEYV, and the reach of the line. -/

namespace Sys2Proof.Machine

/-! ### What EXEC reads -/

/-- The states agree on every register that EXEC reads; KEY is read only while KEYV is set. -/
structure SameForExec (s u : State) : Prop where
  proc : u.proc = s.proc
  seq : u.seq = s.seq
  keyV : u.keyV = s.keyV
  key : s.keyV = true → u.key = s.key
  cfg : u.cfg = s.cfg
  eCount : u.eCount = s.eCount
  draws : u.draws = s.draws
  drawCount : u.drawCount = s.drawCount

/-- The draws depend on the queue and the count only. -/
theorem drawBytes_congr (n : Nat) {s u : State} (hd : u.draws = s.draws) (hc : u.drawCount = s.drawCount) :
    ∃ pad q m, s.drawBytes n = (pad, s.setDraws q m) ∧ u.drawBytes n = (pad, u.setDraws q m) := by
  induction n generalizing s u with
  | zero => exact ⟨[], s.draws, s.drawCount, rfl, by rw [← hd, ← hc]; rfl⟩
  | succ n ih =>
    have hdraw : ∃ x q m, s.draw = (x, s.setDraws q m) ∧ u.draw = (x, u.setDraws q m) := by
      unfold State.draw
      rw [hd, hc]
      split
      · exact ⟨_, _, _, rfl, rfl⟩
      · exact ⟨_, _, _, rfl, rfl⟩
    obtain ⟨x, q, m, hs, hu⟩ := hdraw
    obtain ⟨pad, q', m', hs', hu'⟩ := ih (s := s.setDraws q m) (u := u.setDraws q m) rfl rfl
    exact ⟨BitVec.ofNat 8 x :: pad, q', m', by simp only [State.drawBytes, hs, hs']; rfl,
      by simp only [State.drawBytes, hu, hu']; rfl⟩

theorem buildWithDraw_congr (reqArgs : Bool) (code : Byte) (args : Bytes) (sb : Byte) (key : Option Bytes) (e : Count)
    {s u : State} (hd : u.draws = s.draws) (hc : u.drawCount = s.drawCount) :
    ∃ r q m, buildWithDraw reqArgs code args sb key e s = (r, s.setDraws q m) ∧
      buildWithDraw reqArgs code args sb key e u = (r, u.setDraws q m) := by
  unfold buildWithDraw
  split
  · exact ⟨_, s.draws, s.drawCount, rfl, by rw [← hd, ← hc]; rfl⟩
  · next p _ =>
    obtain ⟨pad, q, m, hs, hu⟩ := drawBytes_congr p hd hc
    exact ⟨_, q, m, by rw [hs], by rw [hu]⟩

/-- EXEC refuses both with the same error, or admits both with the same packet, and writes the same. -/
theorem startCommand_congr {s u : State} (h : SameForExec s u) (flags : CmdFlags) (code : Byte) (args : Bytes) :
    (∃ e b q m, startCommand flags code args s = refuseCommand e ((s.setSeq b).setDraws q m) ∧
      startCommand flags code args u = refuseCommand e ((u.setSeq b).setDraws q m)) ∨
    (∃ packet sb b q m, startCommand flags code args s = admitCommand packet sb ((s.setSeq b).setDraws q m) ∧
      startCommand flags code args u = admitCommand packet sb ((u.setSeq b).setDraws q m)) := by
  have hsame : (u.setSeq s.seq).setDraws s.draws s.drawCount = u := by
    rw [← h.seq, ← h.draws, ← h.drawCount]
    rfl
  cases hp : s.proc with
  | true =>
    exact .inl ⟨_, s.seq, s.draws, s.drawCount, startCommand_busy code hp,
      by rw [startCommand_busy code (h.proc.trans hp), hsame]⟩
  | false =>
    have hp' := h.proc.trans hp
    cases hk : flags.known with
    | false =>
      exact .inl ⟨_, s.seq, s.draws, s.drawCount, startCommand_unknown code hp hk,
        by rw [startCommand_unknown code hp' hk, hsame]⟩
    | true =>
      by_cases hr : flags.reqEnc = true → s.keyV = true
      · have hkey : commandKey flags (u.setSeq (flags.isSync || s.seq)) =
            commandKey flags (s.setSeq (flags.isSync || s.seq)) := by
          rw [commandKey_eq, commandKey_eq]
          simp only [State.setSeq_keyV, State.setSeq_cfg, State.setSeq_key, h.keyV, h.cfg]
          exact if_ctx_congr Iff.rfl (fun hv => congrArg some (h.key hv.1)) fun _ => rfl
        have hsb : outboundSeq (u.setSeq (flags.isSync || s.seq)) = outboundSeq (s.setSeq (flags.isSync || s.seq)) :=
          congrArg (fun c : Config => seqByte (flags.isSync || s.seq) c.deviceId) h.cfg
        obtain ⟨r, q, m, hs, hu⟩ := buildWithDraw_congr flags.reqArgs code args
          (outboundSeq (s.setSeq (flags.isSync || s.seq))) (commandKey flags (s.setSeq (flags.isSync || s.seq))) s.eCount
          (s := s.setSeq (flags.isSync || s.seq)) (u := u.setSeq (flags.isSync || s.seq)) h.draws h.drawCount
        rw [startCommand_sends code hp hk hr, startCommand_sends code hp' hk (h.keyV ▸ hr), h.seq]
        simp only [sendCommand, hkey, hsb, State.setSeq_eCount, h.eCount, hs, hu]
        cases r with
        | error e => exact .inl ⟨e, _, q, m, rfl, rfl⟩
        | ok packet => exact .inr ⟨packet, _, _, q, m, rfl, rfl⟩
      · obtain ⟨hreq, hv⟩ : flags.reqEnc = true ∧ s.keyV = false := by simpa using hr
        exact .inl ⟨_, s.seq, s.draws, s.drawCount, startCommand_keyless code hp hk hreq hv,
          by rw [startCommand_keyless code hp' hk hreq (h.keyV.trans hv), hsame]⟩

/-! ### The line, two runs side by side -/

/-- A relation that the hand-off of a frame, an expiry and every write of the decoder's registers keep. -/
structure LineAlike (R : State → State → Prop) : Prop where
  rxs : ∀ {s u}, R s u → u.rxs = s.rxs
  rxBuf : ∀ {s u}, R s u → u.rxBuf = s.rxBuf
  setRx : ∀ {s u}, R s u → ∀ r buf, R (s.setRx r buf) (u.setRx r buf)
  frameIn : ∀ {s u}, R s u → ∀ f, R (frameIn f s) (frameIn f u)
  timeout : ∀ {s u}, R s u →
    R (if s.tmr then failAttempt .timeout s else s) (if u.tmr then failAttempt .timeout u else u)

/-- The operations of the line and the timer, and the decoder's hand-off. -/
def LineOp (i : Instr) : Prop :=
  portOf i = .rxd ∨ portOf i = .internal ∨ portOf i = .tmo

/-- Every operation is of the line, handles the key, or is one that `Alike.exec` speaks of. -/
theorem instr_kinds (i : Instr) :
    (portOf i = .host ∨ opcode i ∈ ([0x01, 0x02, 0x04, 0x05, 0x08, 0x09, 0x10] : Bytes)) ∨
      (∃ key, i = .keyInstall key) ∨ i = .keyClear ∨ LineOp i := by
  cases i <;> simp [portOf, opcode, LineOp]

section
variable {R : State → State → Prop} (hR : LineAlike R) {s u : State} (h : R s u)
include hR h

theorem LineAlike.appendByte (b : Byte) : R (appendByte b s) (appendByte b u) := by
  unfold Machine.appendByte
  simp only
  rw [hR.rxBuf h]
  split
  · exact hR.frameIn (hR.setRx h _ _) _
  · exact hR.setRx h _ _

theorem LineAlike.rxByte (b : Byte) : R (rxByte b s) (rxByte b u) := by
  unfold Machine.rxByte
  rw [hR.rxs h, hR.rxBuf h]
  cases s.rxs with
  | idle =>
    simp only
    split
    · exact hR.setRx h _ _
    · exact h
  | inFrame =>
    simp only
    split
    · split
      · exact hR.setRx h _ _
      · exact hR.setRx h _ _
    · exact hR.appendByte h b
  | awaitStuff =>
    simp only
    split
    · exact hR.appendByte h stx
    · exact hR.setRx h _ _

theorem LineAlike.rxChunk (data : Bytes) : R (rxChunk data s) (rxChunk data u) := by
  induction data generalizing s u with
  | nil => exact h
  | cons b bs ih => exact ih (hR.rxByte h b)

theorem LineAlike.rxFlush : R (rxFlush s) (rxFlush u) := by
  unfold Machine.rxFlush
  rw [hR.rxBuf h]
  split
  · exact hR.frameIn (hR.setRx h _ _) _
  · exact hR.setRx h _ _

theorem LineAlike.exec {i : Instr} (hi : LineOp i) : ∃ t v, exec i s = .next t ∧ exec i u = .next v ∧ R t v := by
  cases i with
  | rxByte b => exact ⟨_, _, rfl, rfl, hR.rxByte h b⟩
  | rxChunk data => exact ⟨_, _, rfl, rfl, hR.rxChunk h data⟩
  | rxFlush => exact ⟨_, _, rfl, rfl, hR.rxFlush h⟩
  | frameIn f => exact ⟨_, _, rfl, rfl, hR.frameIn h f⟩
  | timeout => exact ⟨_, _, rfl, rfl, hR.timeout h⟩
  | _ => simp [LineOp, portOf] at hi

end

/-! ### One run: invariants -/

/-- The same state on both sides, with a property: the relation of an invariant. -/
def OnBoth (P : State → Prop) (s u : State) : Prop :=
  u = s ∧ P s

theorem alike_onBoth {P : State → Prop} (hhost : ∀ s h, P s → P (s.setHost h))
    (hdraws : ∀ s q n, P s → P (s.setDraws q n)) (hrespond : ∀ s r, P s → P (s.respond r))
    (hstart : ∀ flags code args s, P s → P (startCommand flags code args s).1) : Alike (OnBoth P) where
  host := fun ⟨h, _⟩ => by rw [h]
  proc := fun ⟨h, _⟩ => by rw [h]
  cfg := fun ⟨h, _⟩ => by rw [h]
  out := fun ⟨h, _⟩ => by rw [h]
  draws := fun ⟨h, _⟩ => by rw [h]
  drawCount := fun ⟨h, _⟩ => by rw [h]
  setHost := fun ⟨h, hp⟩ x => ⟨by rw [h], hhost _ x hp⟩
  setDraws := fun ⟨h, hp⟩ q n => ⟨by rw [h], hdraws _ q n hp⟩
  respond := fun ⟨h, hp⟩ r => ⟨by rw [h], hrespond _ r hp⟩
  start := fun ⟨h, hp⟩ flags code args => ⟨by rw [h], by rw [h], hstart flags code args _ hp⟩

theorem lineAlike_onBoth {P : State → Prop} (hrx : ∀ s r buf, P s → P (s.setRx r buf))
    (hframe : ∀ s f, P s → P (frameIn f s)) (hfail : ∀ s, s.tmr = true → P s → P (failAttempt .timeout s)) :
    LineAlike (OnBoth P) where
  rxs := fun ⟨h, _⟩ => by rw [h]
  rxBuf := fun ⟨h, _⟩ => by rw [h]
  setRx := fun ⟨h, hp⟩ r buf => ⟨by rw [h], hrx _ r buf hp⟩
  frameIn := fun ⟨h, hp⟩ f => ⟨by rw [h], hframe _ f hp⟩
  timeout := fun {s _} ⟨h, hp⟩ => ⟨by rw [h], by
    split
    next ht => exact hfail s ht hp
    next => exact hp⟩

/-- An invariant of the line is kept by its operations. -/
theorem LineAlike.invariant {P : State → Prop} (hR : LineAlike (OnBoth P)) {i : Instr} (hi : LineOp i) {s t : State}
    (he : Machine.exec i s = .next t) (hp : P s) : P t := by
  obtain ⟨t', v, ht, -, -, hpt⟩ := hR.exec ⟨rfl, hp⟩ hi
  obtain rfl : t' = t := Host.Outcome.next.inj (ht.symm.trans he)
  exact hpt

/-- What FRAME_IN keeps: what a failed attempt and the completion of a waiting command keep. -/
theorem frameIn_keeps {P : State → Prop} {s : State} (f : Bytes)
    (hfail : ∀ c, s.sess = .awaiting → FrameRejected f s c → P (failAttempt c s))
    (hcomplete : ∀ p, s.sess = .awaiting → P (completeCommand p (if countsUp f s then s.countUp else s))) (hp : P s) :
    P (frameIn f s) := by
  rcases frameIn_cases f s with ⟨-, h⟩ | ⟨c, hs, hr, h⟩ | ⟨p, hs, -, -, -, h⟩ <;> rw [h]
  · exact hp
  · exact hfail c hs hr
  · exact hcomplete p hs

/-- What a failed attempt keeps: what each of its two ends keeps (rule R258). -/
theorem failAttempt_keeps {P : State → Prop} {s : State} (c : Status)
    (hretry : s.attempt < s.cfg.commandRetries.val → P { s with
      lastCause := c, attempt := s.attempt + 1, proc := true, tmr := true, out := s.out ++ [.txd s.txBuf] })
    (hfinal : s.cfg.commandRetries.val ≤ s.attempt → P { s with
      lastCause := c, proc := false, tmr := false, sess := .idle,
      out := s.out ++ [.res (.commandFailed s.attempt c)] }) : P (failAttempt c s) := by
  rcases Nat.lt_or_ge s.attempt s.cfg.commandRetries.val with h | h
  · rw [failAttempt_retry c s h]
    exact hretry h
  · rw [failAttempt_final c s h]
    exact hfinal h

/-! ### The reach of the line (rule R46) -/

/-- `t` differs from `s` within the reach of the line. -/
def LineReach (s t : State) : Prop :=
  t = { s with
    rxs := t.rxs, rxBuf := t.rxBuf, eCount := t.eCount, seq := t.seq, proc := t.proc, sess := t.sess,
    tmr := t.tmr, attempt := t.attempt, lastCause := t.lastCause, out := t.out }

theorem LineReach.failAttempt {s t : State} (h : LineReach s t) (c : Status) : LineReach s (failAttempt c t) := by
  unfold LineReach at h
  refine failAttempt_keeps c (fun _ => ?_) fun _ => ?_ <;> rw [h] <;> rfl

theorem lineAlike_lineReach (s : State) : LineAlike (OnBoth (LineReach s)) := by
  refine lineAlike_onBoth (fun t r buf h => ?_) (fun t f h => ?_) fun t _ h => h.failAttempt _
  · unfold LineReach at h
    rw [h]
    rfl
  · refine frameIn_keeps f (fun c _ _ => h.failAttempt c) (fun p _ => ?_) h
    unfold LineReach at h
    split <;> rw [h] <;> rfl

/-- Settles O44: every move of the line writes registers within its reach only. -/
theorem lineAgentReach : Obligations.LineAgentReach := by
  intro i s t he hi
  have hline : LineOp i := by
    rcases hi with rfl | ⟨b, d, rfl | rfl⟩ <;> exact .inl rfl
  exact (lineAlike_lineReach s).invariant hline he (show LineReach s s from rfl)

/-! ### KEY while KEYV = 0 (rules R28 and R45) -/

/-- KEYV is 0, and the other state differs in KEY alone. -/
def KeyDiffers (k : Bytes) (s u : State) : Prop :=
  s.keyV = false ∧ u = { s with key := k }

theorem failAttempt_withKey (c : Status) (s : State) (k : Bytes) :
    failAttempt c { s with key := k } = { failAttempt c s with key := k } := by
  rcases Nat.lt_or_ge s.attempt s.cfg.commandRetries.val with h | h
  · rw [failAttempt_retry c s h, failAttempt_retry c { s with key := k } h]
  · rw [failAttempt_final c s h, failAttempt_final c { s with key := k } h]

theorem failAttempt_keyV (c : Status) (s : State) : (failAttempt c s).keyV = s.keyV :=
  failAttempt_keeps (P := fun t => t.keyV = s.keyV) c (fun _ => rfl) fun _ => rfl

theorem frameIn_keyV (f : Bytes) (s : State) : (frameIn f s).keyV = s.keyV := by
  refine frameIn_keeps (P := fun t => t.keyV = s.keyV) f (fun c _ _ => failAttempt_keyV c s) (fun p _ => ?_) rfl
  split <;> rfl

/-- Without a key EXTRACT is given none, whatever KEY holds (rule R266). -/
theorem frameIn_withKey {s : State} (hv : s.keyV = false) (f : Bytes) (k : Bytes) :
    frameIn f { s with key := k } = { frameIn f s with key := k } := by
  have hkey : sessionKey { s with key := k } = sessionKey s := by simp [sessionKey, hv]
  rcases frameIn_cases f s with ⟨hs, h⟩ | ⟨c, hs, hr, h⟩ | ⟨p, hs, hlen, hseq, hext, h⟩ <;> rw [h]
  · exact frameIn_idle (s := { s with key := k }) f hs
  · have hr' : FrameRejected f { s with key := k } c := by
      unfold FrameRejected
      rw [hkey]
      exact hr
    rw [frameIn_rejected (s := { s with key := k }) hs hr', failAttempt_withKey]
  · rw [frameIn_accepted (s := { s with key := k }) hs hlen hseq (hkey.symm ▸ hext)]
    have hstay : ∀ t : State, t.keyV = false → countsUp f t = false := fun t ht => by simp [countsUp, ht]
    rw [hstay s hv, hstay { s with key := k } hv]
    rfl

theorem sameForExec_keyDiffers {k : Bytes} {s u : State} (h : KeyDiffers k s u) : SameForExec s u := by
  obtain ⟨hv, rfl⟩ := h
  exact ⟨rfl, rfl, rfl, fun h => absurd (hv.symm.trans h) Bool.false_ne_true, rfl, rfl, rfl, rfl⟩

theorem alike_keyDiffers (k : Bytes) : Alike (KeyDiffers k) where
  host := fun ⟨_, h⟩ => by rw [h]
  proc := fun ⟨_, h⟩ => by rw [h]
  cfg := fun ⟨_, h⟩ => by rw [h]
  out := fun ⟨_, h⟩ => by rw [h]
  draws := fun ⟨_, h⟩ => by rw [h]
  drawCount := fun ⟨_, h⟩ => by rw [h]
  setHost := fun ⟨hv, h⟩ _ => ⟨hv, by rw [h]; rfl⟩
  setDraws := fun ⟨hv, h⟩ _ _ => ⟨hv, by rw [h]; rfl⟩
  respond := fun ⟨hv, h⟩ _ => ⟨hv, by rw [h]; rfl⟩
  start := fun {s u} h flags code args => by
    have hcongr := startCommand_congr (sameForExec_keyDiffers h) flags code args
    obtain ⟨hv, rfl⟩ := h
    rcases hcongr with ⟨e, b, q, m, hs, hu⟩ | ⟨packet, sb, b, q, m, hs, hu⟩ <;> rw [hs, hu]
    · exact ⟨rfl, hv, rfl⟩
    · exact ⟨rfl, hv, rfl⟩

theorem lineAlike_keyDiffers (k : Bytes) : LineAlike (KeyDiffers k) where
  rxs := fun ⟨_, h⟩ => by rw [h]
  rxBuf := fun ⟨_, h⟩ => by rw [h]
  setRx := fun ⟨hv, h⟩ _ _ => ⟨hv, by rw [h]; rfl⟩
  frameIn := fun ⟨hv, h⟩ f => ⟨(frameIn_keyV f _).trans hv, by rw [h]; exact frameIn_withKey hv f k⟩
  timeout := fun {s u} ⟨hv, h⟩ => by
    subst h
    show KeyDiffers k (if s.tmr then failAttempt .timeout s else s)
      (if s.tmr then failAttempt .timeout { s with key := k } else { s with key := k })
    split
    · exact ⟨(failAttempt_keyV _ s).trans hv, failAttempt_withKey _ s k⟩
    · exact ⟨hv, rfl⟩

/-- Settles O46: while KEYV = 0 every operation but KEY_INSTALL leaves two runs that differ in KEY alone, and KEYV = 0;
KEY_INSTALL overwrites what they differ in. -/
theorem keyUnreadWhileAbsent : Obligations.KeyUnreadWhileAbsent := by
  intro i s t k hv he
  have hstart : KeyDiffers k s { s with key := k } := ⟨hv, rfl⟩
  have alike : (∃ t' v, exec i s = .next t' ∧ exec i { s with key := k } = .next v ∧ KeyDiffers k t' v) →
      ∃ k', exec i { s with key := k } = .next { t with key := k' } ∧
        (t.keyV = true → k' = t.key) ∧ (t.keyV = false → k' = k) := by
    rintro ⟨t', v, ht, hu, hv', rfl⟩
    obtain rfl : t' = t := Host.Outcome.next.inj (ht.symm.trans he)
    exact ⟨k, hu, fun h => absurd (hv'.symm.trans h) Bool.false_ne_true, fun _ => rfl⟩
  rcases instr_kinds i with hi | ⟨key, rfl⟩ | rfl | hi
  · exact alike ((alike_keyDiffers k).exec hstart hi fun _ => by
      rintro s u ⟨-, rfl⟩
      exact ⟨rfl, rfl⟩)
  · by_cases hlen : key.length = 16
    · obtain ⟨hinstall, -⟩ := keyInstallLoadsTheKey key s
      obtain ⟨hinstall', -⟩ := keyInstallLoadsTheKey key { s with key := k }
      obtain rfl := Host.Outcome.next.inj ((hinstall hlen).symm.trans he)
      exact ⟨key, hinstall' hlen, fun _ => rfl, nofun⟩
    · obtain ⟨-, hill⟩ := keyInstallLoadsTheKey key s
      obtain ⟨-, hill'⟩ := keyInstallLoadsTheKey key { s with key := k }
      exact alike ⟨_, _, hill hlen, hill' hlen, hv, rfl⟩
  · exact alike ⟨_, _, rfl, rfl, rfl, rfl⟩
  · exact alike ((lineAlike_keyDiffers k).exec hstart hi)

/-! ### The last command's registers while no command is in flight (rules R31 to R35 and R45) -/

/-- The other state differs in TXBUF, OSEQ, ATTEMPT and LASTCAUSE alone. -/
def OldCommandDiffers (s u : State) : Prop :=
  ∃ txBuf oSeq attempt cause,
    u = { s with txBuf := txBuf, oSeq := oSeq, attempt := attempt, lastCause := cause }

/-- The same while the session is IDLE, where the line does not come to use them. -/
def IdleOldDiffers (s u : State) : Prop :=
  (s.sess = .idle ∧ s.tmr = false) ∧ OldCommandDiffers s u

theorem sameForExec_oldCommandDiffers {s u : State} (h : OldCommandDiffers s u) : SameForExec s u := by
  obtain ⟨_, _, _, _, rfl⟩ := h
  exact ⟨rfl, rfl, rfl, fun _ => rfl, rfl, rfl, rfl, rfl⟩

theorem alike_oldCommandDiffers : Alike OldCommandDiffers where
  host := fun ⟨_, _, _, _, h⟩ => by rw [h]
  proc := fun ⟨_, _, _, _, h⟩ => by rw [h]
  cfg := fun ⟨_, _, _, _, h⟩ => by rw [h]
  out := fun ⟨_, _, _, _, h⟩ => by rw [h]
  draws := fun ⟨_, _, _, _, h⟩ => by rw [h]
  drawCount := fun ⟨_, _, _, _, h⟩ => by rw [h]
  setHost := fun ⟨a, b, c, d, h⟩ _ => ⟨a, b, c, d, by rw [h]; rfl⟩
  setDraws := fun ⟨a, b, c, d, h⟩ _ _ => ⟨a, b, c, d, by rw [h]; rfl⟩
  respond := fun ⟨a, b, c, d, h⟩ _ => ⟨a, b, c, d, by rw [h]; rfl⟩
  start := fun {s u} h flags code args => by
    have hcongr := startCommand_congr (sameForExec_oldCommandDiffers h) flags code args
    obtain ⟨txBuf, oSeq, attempt, cause, rfl⟩ := h
    rcases hcongr with ⟨e, b, q, m, hs, hu⟩ | ⟨packet, sb, b, q, m, hs, hu⟩ <;> rw [hs, hu]
    · exact ⟨rfl, txBuf, oSeq, attempt, cause, rfl⟩
    · exact ⟨rfl, packet, sb, 1, .ok, rfl⟩

theorem lineAlike_idleOldDiffers : LineAlike IdleOldDiffers where
  rxs := fun ⟨_, _, _, _, _, h⟩ => by rw [h]
  rxBuf := fun ⟨_, _, _, _, _, h⟩ => by rw [h]
  setRx := fun ⟨hidle, a, b, c, d, h⟩ _ _ => ⟨hidle, a, b, c, d, by rw [h]; rfl⟩
  frameIn := fun {s u} ⟨⟨hsess, htmr⟩, a, b, c, d, h⟩ f => by
    have hsess' : u.sess = .idle := by rw [h]; exact hsess
    rw [frameIn_idle f hsess, frameIn_idle f hsess']
    exact ⟨⟨hsess, htmr⟩, a, b, c, d, h⟩
  timeout := fun {s u} ⟨⟨hsess, htmr⟩, a, b, c, d, h⟩ => by
    have htmr' : u.tmr = false := by rw [h]; exact htmr
    rw [htmr, htmr']
    exact ⟨⟨hsess, htmr⟩, a, b, c, d, h⟩

/-- Settles O47: an admitted EXEC overwrites the four registers, every other operation of CMD and of the host passes them
over, and the line and the timer do nothing to an IDLE session. -/
theorem oldCommandUnreadWhileIdle : Obligations.OldCommandUnreadWhileIdle := by
  intro i s t txBuf oSeq attempt cause _ hsess htmr he
  have hstart : OldCommandDiffers s
      { s with txBuf := txBuf, oSeq := oSeq, attempt := attempt, lastCause := cause } := ⟨_, _, _, _, rfl⟩
  obtain ⟨t', v, ht, hu, a, b, c, d, rfl⟩ : ∃ t' v, exec i s = .next t' ∧
      exec i { s with txBuf := txBuf, oSeq := oSeq, attempt := attempt, lastCause := cause } = .next v ∧
      OldCommandDiffers t' v := by
    rcases instr_kinds i with hi | ⟨key, rfl⟩ | rfl | hi
    · exact alike_oldCommandDiffers.exec hstart hi fun _ => by
        rintro s u ⟨_, _, _, _, rfl⟩
        exact ⟨_, _, _, _, rfl⟩
    · refine ⟨_, _, rfl, rfl, ?_⟩
      split
      · exact ⟨_, _, _, _, rfl⟩
      · exact ⟨_, _, _, _, rfl⟩
    · exact ⟨_, _, rfl, rfl, _, _, _, _, rfl⟩
    · obtain ⟨t', v, ht, hu, -, hdiffers⟩ := lineAlike_idleOldDiffers.exec ⟨⟨hsess, htmr⟩, hstart⟩ hi
      exact ⟨t', v, ht, hu, hdiffers⟩
  obtain rfl : t' = t := Host.Outcome.next.inj (ht.symm.trans he)
  exact ⟨_, hu, rfl, rfl, rfl, rfl, rfl, rfl, rfl, rfl, rfl, rfl, rfl⟩

/-! ### Who sets KEYV (rules R263 and R329) -/

/-- No key is installed. -/
def Keyless (s : State) : Prop :=
  s.keyV = false

theorem startCommand_keyV (flags : CmdFlags) (code : Byte) (args : Bytes) (s : State) :
    (startCommand flags code args s).1.keyV = s.keyV := by
  rcases startCommand_cases flags code args s with ⟨e, b, q, n, -, -, -, h⟩ | ⟨packet, pad, q, n, -, -, -, -, -, h⟩ <;>
    rw [h]

theorem alike_keyless : Alike (OnBoth Keyless) :=
  alike_onBoth (fun _ _ h => h) (fun _ _ _ h => h) (fun _ _ h => h) fun flags code args s h =>
    (startCommand_keyV flags code args s).trans h

theorem lineAlike_keyless : LineAlike (OnBoth Keyless) :=
  lineAlike_onBoth (fun _ _ _ h => h) (fun s f h => (frameIn_keyV f s).trans h) fun s _ h =>
    (failAttempt_keyV _ s).trans h

/-- Of the operations only KEY_INSTALL sets KEYV. -/
theorem exec_sets_keyV {i : Instr} {s t : State} (hv : s.keyV = false) (he : exec i s = .next t)
    (ht : t.keyV = true) : i = .keyInstall t.key := by
  have hstart : OnBoth Keyless s s := ⟨rfl, hv⟩
  have keyless : (∃ t' v, exec i s = .next t' ∧ exec i s = .next v ∧ OnBoth Keyless t' v) → i = .keyInstall t.key := by
    rintro ⟨t', v, ht', -, -, hv'⟩
    obtain rfl : t' = t := Host.Outcome.next.inj (ht'.symm.trans he)
    exact absurd (Eq.trans hv'.symm ht) Bool.false_ne_true
  rcases instr_kinds i with hi | ⟨key, rfl⟩ | rfl | hi
  · exact keyless (alike_keyless.exec hstart hi fun _ => by
      rintro s u ⟨rfl, -⟩
      exact ⟨rfl, rfl⟩)
  · obtain ⟨hinstall, hill⟩ := keyInstallLoadsTheKey key s
    by_cases hlen : key.length = 16
    · obtain rfl := Host.Outcome.next.inj ((hinstall hlen).symm.trans he)
      rfl
    · exact keyless ⟨_, _, hill hlen, hill hlen, rfl, hv⟩
  · exact keyless ⟨_, _, rfl, rfl, rfl, rfl⟩
  · exact keyless (lineAlike_keyless.exec hstart hi)

/-- Settles O29: KEYV is read by EXEC's third test; it is set by KEY_INSTALL, or by the one the host issues when it goes on
with a key exchange. -/
theorem keyClearDropsTheKey : Obligations.KeyClearDropsTheKey := by
  refine ⟨fun s => rfl, fun flags code args s hv hk hr => ?_, fun s t hv hstep ht => ?_⟩
  · rw [exec_exec]
    cases hp : s.proc with
    | true => rw [startCommand_busy code hp, next_refuseCommand, if_pos rfl, hp]
    | false => rw [startCommand_keyless code hp hk hr hv, next_refuseCommand, if_neg Bool.false_ne_true, hp]
  · have keyless : ∀ {v}, OnBoth Keyless t v → False := fun h => Bool.false_ne_true (Eq.trans h.2.symm ht)
    have hinbox : ∀ rest, OnBoth Keyless (s.setInbox rest) (s.setInbox rest) := fun rest => ⟨rfl, hv⟩
    rcases step_cases hstep with ⟨-, rfl⟩ | ⟨p, bytes, rest, i, hin, hdec, hport, he⟩ | ⟨bytes, rest, -, rfl⟩ |
      ⟨name, args, rest, -, rfl⟩ | ⟨k, rest, hin, rfl⟩ | ⟨rest, -, rfl⟩ | ⟨e, rest, -, rfl⟩
    · exact absurd (hv.symm.trans ht) Bool.false_ne_true
    · obtain rfl := exec_sets_keyV (s := s.setInbox rest) hv he ht
      obtain rfl := hport
      exact .inl ⟨bytes, rest, hin, hdec⟩
    · exact (keyless (alike_keyless.respond (hinbox rest) _)).elim
    · exact (keyless (alike_keyless.issueCommand (hinbox rest) name args .report)).elim
    · by_cases hk : ∃ c mark, s.host.tasks[k]? = some (.awaiting .requestKeyExchange c mark)
      · obtain ⟨c, mark, htask⟩ := hk
        exact .inr ⟨k, rest, c, mark, hin, htask⟩
      · exact (keyless (alike_keyless.hostRun (hinbox rest) fun c mark htask => hk ⟨c, mark, htask⟩)).elim
    · exact (keyless (alike_keyless.pollTimer (hinbox rest))).elim
    · exact (keyless (alike_keyless.notify (hinbox rest) _)).elim

end Sys2Proof.Machine
end

section
/-! PROOF. What every step keeps.  A step is quiet moves of the host with at most one command started between them, or a move
of the line or the timer; each invariant is proved of these moves once. -/

namespace Sys2Proof.Machine

/-! ### The moves a step is made of -/

/-- A quiet relation that the pure operations' answers and the taking of an input keep too. -/
structure StepQuiet (Q : State → State → Prop) : Prop extends Quiet Q where
  answer : ∀ s r, (∀ e, r = .error e → e ≠ .framingError) → Q s (s.answer r)
  setInbox : ∀ s l, Q s (s.setInbox l)

/-- A relation of everything a step can do: quiet moves, the start of a command, and the moves of line and timer. -/
structure Kept (Q : State → State → Prop) : Prop extends StepQuiet Q where
  start : ∀ flags code args s, Q s (startCommand flags code args s).1
  setRx : ∀ s r buf, Q s (s.setRx r buf)
  fail : ∀ c s, c ≠ .framingError → s.sess = .awaiting ∨ s.tmr = true → Q s (failAttempt c s)
  complete : ∀ f p s, s.sess = .awaiting → Q s (completeCommand p (if countsUp f s then s.countUp else s))

theorem frameRejected_ne_framingError {f : Bytes} {s : State} {c : Status} (h : FrameRejected f s c) :
    c ≠ .framingError := by
  rcases h with ⟨-, rfl⟩ | ⟨-, -, hext⟩
  · decide
  · rcases extractPacket_error hext with rfl | rfl | rfl | rfl <;> decide

section
variable {Q : State → State → Prop}

/-- A line operation keeps what its moves keep. -/
theorem line_keeps (hrefl : ∀ s, Q s s) (htrans : ∀ {s t u}, Q s t → Q t u → Q s u)
    (hrx : ∀ s r buf, Q s (s.setRx r buf))
    (hfail : ∀ c s, c ≠ .framingError → s.sess = .awaiting ∨ s.tmr = true → Q s (failAttempt c s))
    (hcomplete : ∀ f p s, s.sess = .awaiting → Q s (completeCommand p (if countsUp f s then s.countUp else s)))
    {i : Instr} (hi : LineOp i) {s t : State} (he : exec i s = .next t) : Q s t := by
  have hframe : ∀ u f, Q s u → Q s (frameIn f u) := fun u f hu =>
    frameIn_keeps f (fun c hs hr => htrans hu (hfail c u (frameRejected_ne_framingError hr) (.inl hs)))
      (fun p hs => htrans hu (hcomplete f p u hs)) hu
  exact (lineAlike_onBoth (P := Q s) (fun u r buf hu => htrans hu (hrx u r buf)) hframe
    fun u ht hu => htrans hu (hfail _ u (by decide) (.inr ht))).invariant hi he (hrefl s)

theorem HostMove.keeps (hq : Quiet Q) {y : Bool} {s t : State} (h : HostMove Q y s t)
    (hstart : ∀ flags code args u, flags.isSync = y → Q u (startCommand flags code args u).1) : Q s t := by
  rcases h with h | ⟨u, flags, code, args, hy, hsu, hut⟩
  · exact h
  · exact hq.trans hsu (hq.trans (hstart flags code args u hy) hut)

/-- An operation is a host move, which starts SYNC only as an EXEC of SYNC, or a move of line or timer. -/
theorem exec_moves (hq : StepQuiet Q) {i : Instr} {s t : State} (he : exec i s = .next t) :
    (∃ y, (y = true → ∃ flags code args, i = .exec flags code args ∧ flags.isSync = true) ∧ HostMove Q y s t) ∨
      LineOp i := by
  have quiet : Q s t → ∃ y, (y = true → ∃ flags code args, i = .exec flags code args ∧ flags.isSync = true) ∧
      HostMove Q y s t := fun h => ⟨false, nofun, .inl h⟩
  rcases exec_cases hq.toQuiet he with ⟨-, q, n, r, rfl, hr⟩ | ⟨flags, code, args, rfl, rfl⟩ | ⟨key, -, h⟩ | ⟨-, rfl⟩ |
    ⟨b, rfl, -⟩ | ⟨data, rfl, -⟩ | ⟨rfl, -⟩ | ⟨f, rfl, -⟩ | ⟨rfl, -⟩ | ⟨-, h⟩
  · exact .inl (quiet (hq.trans (hq.setDraws s q n) (hq.answer _ r hr)))
  · exact .inl ⟨flags.isSync, fun hy => ⟨flags, code, args, rfl, hy⟩,
      .inr ⟨s, flags, code, args, rfl, hq.refl s, hq.refl _⟩⟩
  · rcases h with ⟨hlen, rfl⟩ | ⟨-, rfl⟩
    · exact .inl (quiet (hq.install key s hlen))
    · exact .inl (quiet (hq.answer s (.error .illegalOp) fun e he => by cases he; decide))
  · exact .inl (quiet (hq.clear s))
  · exact .inr (.inl rfl)
  · exact .inr (.inl rfl)
  · exact .inr (.inl rfl)
  · exact .inr (.inr (.inl rfl))
  · exact .inr (.inr (.inr rfl))
  · exact .inl ⟨false, nofun, h⟩

/-- So is a step, after it has taken its input. -/
theorem step_moves (hq : StepQuiet Q) {s t : State} (h : step s = .next t) :
    (∃ y, HostMove Q y s t) ∨ ∃ i rest, LineOp i ∧ exec i (s.setInbox rest) = .next t := by
  have after : ∀ {rest y}, HostMove Q y (s.setInbox rest) t → ∃ y, HostMove Q y s t :=
    fun hm => ⟨_, hm.quiet_left hq.toQuiet (hq.setInbox s _)⟩
  have quiet : ∀ {rest}, Q (s.setInbox rest) t → ∃ y, HostMove Q y s t :=
    fun hm => ⟨false, .inl (hq.trans (hq.setInbox s _) hm)⟩
  rcases step_cases h with ⟨-, rfl⟩ | ⟨p, bytes, rest, i, -, -, -, he⟩ | ⟨bytes, rest, -, rfl⟩ |
    ⟨name, args, rest, -, rfl⟩ | ⟨k, rest, -, rfl⟩ | ⟨rest, -, rfl⟩ | ⟨e, rest, -, rfl⟩
  · exact .inl ⟨false, .inl (hq.refl _)⟩
  · exact (exec_moves hq he).imp (fun ⟨_, _, hm⟩ => after hm) fun hi => ⟨i, rest, hi, he⟩
  · exact .inl (quiet (hq.answer _ (.error .illegalOp) fun e he => by cases he; decide))
  · exact .inl (after (hostMove_issueCommand hq.toQuiet name args .report _))
  · exact .inl (after (hostMove_hostRun hq.toQuiet k _))
  · exact .inl (after (hostMove_pollTimer hq.toQuiet _))
  · exact .inl (quiet (hq.setHost _ _))

/-- A step keeps what its moves keep. -/
theorem step_keeps (hq : StepQuiet Q) (hstart : ∀ flags code args s, Q s (startCommand flags code args s).1)
    (hline : ∀ {i s t}, LineOp i → exec i s = .next t → Q s t) {s t : State} (h : step s = .next t) : Q s t := by
  rcases step_moves hq h with ⟨y, hm⟩ | ⟨i, rest, hi, he⟩
  · exact hm.keeps hq.toQuiet fun flags code args u _ => hstart flags code args u
  · exact hq.trans (hq.setInbox s rest) (hline hi he)

theorem Kept.step (hq : Kept Q) {s t : State} (h : Machine.step s = .next t) : Q s t :=
  step_keeps hq.toStepQuiet hq.start
    (fun hi he => line_keeps hq.refl hq.trans hq.setRx hq.fail hq.complete hi he) h

end

/-! ### The configuration (rule R37) -/

theorem failAttempt_cfg (c : Status) (s : State) : (failAttempt c s).cfg = s.cfg :=
  failAttempt_keeps (P := fun t => t.cfg = s.cfg) c (fun _ => rfl) fun _ => rfl

theorem State.answer_cfg (s : State) (r : Except Status Bytes) : (s.answer r).cfg = s.cfg := by
  cases r <;> rfl

theorem startCommand_cfg (flags : CmdFlags) (code : Byte) (args : Bytes) (s : State) :
    (startCommand flags code args s).1.cfg = s.cfg := by
  rcases startCommand_cases flags code args s with ⟨e, b, q, n, -, -, -, h⟩ | ⟨packet, pad, q, n, -, -, -, -, -, h⟩ <;>
    rw [h]

theorem kept_cfg : Kept fun s t => t.cfg = s.cfg where
  refl _ := rfl
  trans h1 h2 := h2.trans h1
  setHost _ _ := rfl
  setDraws _ _ _ := rfl
  install _ _ _ := rfl
  clear _ := rfl
  answer s r _ := s.answer_cfg r
  setInbox _ _ := rfl
  start := startCommand_cfg
  setRx _ _ _ := rfl
  fail c s _ _ := failAttempt_cfg c s
  complete f p s _ := by split <;> rfl

/-- Settles O36: no move writes the configuration. -/
theorem configurationIsConstant : Obligations.ConfigurationIsConstant :=
  fun _ _ => kept_cfg.step

/-! ### FramingError (rule R353) -/

/-- No record of these outputs carries FramingError. -/
def FramingFree (new : List Output) : Prop :=
  ∀ r, .res r ∈ new → r ≠ .error .framingError ∧ ∀ n, r ≠ .commandFailed n .framingError

/-- LASTCAUSE does not come to hold FramingError, and what is emitted is free of it. -/
def NoFraming (s t : State) : Prop :=
  (s.lastCause ≠ .framingError → t.lastCause ≠ .framingError) ∧ ∃ new, t.out = s.out ++ new ∧ FramingFree new

theorem NoFraming.silent {s t : State} (hcause : t.lastCause = s.lastCause) (hout : t.out = s.out) : NoFraming s t :=
  ⟨fun h => hcause ▸ h, [], by rw [hout, List.append_nil], fun _ hr => absurd hr List.not_mem_nil⟩

theorem framingFree_txd (p : Bytes) : FramingFree [.txd p] :=
  fun r hr => by simp at hr

theorem framingFree_res {r : Res} (h : resStatus r = .ok ∨ (∃ e, r = .error e ∧ e ≠ .framingError) ∨
    ∃ n c, r = .commandFailed n c ∧ c ≠ .framingError) : FramingFree [.res r] := by
  intro r' hr
  obtain rfl : r' = r := by simpa using hr
  rcases h with h | ⟨e, rfl, he⟩ | ⟨n, c, rfl, hc⟩
  · cases r' with
    | ok data => exact ⟨nofun, nofun⟩
    | completed p => exact ⟨nofun, nofun⟩
    | commandFailed n c => cases h
    | error e =>
      obtain rfl : e = .ok := h
      exact ⟨nofun, nofun⟩
  · simpa using he
  · simpa using hc

theorem NoFraming.trans {s t u : State} (h1 : NoFraming s t) (h2 : NoFraming t u) : NoFraming s u := by
  obtain ⟨hc1, new1, ho1, hf1⟩ := h1
  obtain ⟨hc2, new2, ho2, hf2⟩ := h2
  refine ⟨hc2 ∘ hc1, new1 ++ new2, by rw [ho2, ho1, List.append_assoc], fun r hr => ?_⟩
  exact (List.mem_append.mp hr).elim (hf1 r) (hf2 r)

theorem noFraming_failAttempt {c : Status} (hc : c ≠ .framingError) (s : State) : NoFraming s (failAttempt c s) :=
  failAttempt_keeps c (fun _ => ⟨fun _ => hc, _, rfl, framingFree_txd _⟩)
    fun _ => ⟨fun _ => hc, _, rfl, framingFree_res (.inr (.inr ⟨_, _, rfl, hc⟩))⟩

theorem noFraming_startCommand (flags : CmdFlags) (code : Byte) (args : Bytes) (s : State) :
    NoFraming s (startCommand flags code args s).1 := by
  rcases startCommand_cases flags code args s with ⟨e, b, q, n, he, -, -, h⟩ | ⟨packet, pad, q, n, -, -, -, -, -, h⟩ <;>
    rw [h]
  · have hne : e ≠ .framingError := by
      rcases he with rfl | rfl | rfl | rfl | rfl | rfl <;> decide
    exact ⟨id, _, rfl, framingFree_res (.inr (.inl ⟨e, rfl, hne⟩))⟩
  · refine ⟨fun _ => nofun, [.txd packet, .res (.ok [])], rfl, fun r hr => ?_⟩
    obtain rfl : r = .ok [] := by simpa using hr
    exact ⟨nofun, nofun⟩

theorem kept_noFraming : Kept NoFraming where
  refl _ := .silent rfl rfl
  trans := NoFraming.trans
  setHost _ _ := .silent rfl rfl
  setDraws _ _ _ := .silent rfl rfl
  install _ _ _ := ⟨id, _, rfl, framingFree_res (.inl rfl)⟩
  clear _ := ⟨id, _, rfl, framingFree_res (.inl rfl)⟩
  answer s r hr := by
    cases r with
    | ok data => exact ⟨id, _, rfl, framingFree_res (.inl rfl)⟩
    | error e => exact ⟨id, _, rfl, framingFree_res (.inr (.inl ⟨e, rfl, hr e rfl⟩))⟩
  setInbox _ _ := .silent rfl rfl
  start := noFraming_startCommand
  setRx _ _ _ := .silent rfl rfl
  fail c s hc _ := noFraming_failAttempt hc s
  complete f p s _ := by
    split
    · exact ⟨id, _, rfl, framingFree_res (.inl rfl)⟩
    · exact ⟨id, _, rfl, framingFree_res (.inl rfl)⟩

/-- Settles O45: no move raises FramingError or records it. -/
theorem framingErrorNeverSurfaces : Obligations.FramingErrorNeverSurfaces :=
  fun _ _ => kept_noFraming.step

/-! ### SEQ and the completions (rules R26 and R259) -/

@[simp] theorem completions_append (xs ys : List Output) : completions (xs ++ ys) = completions xs ++ completions ys :=
  List.filterMap_append

/-- SEQ has been inverted once for each command that completed. -/
def SeqCounts (s t : State) : Prop :=
  ∃ ps, completions t.out = completions s.out ++ ps ∧ t.seq = (s.seq ^^ decide (ps.length % 2 = 1))

theorem SeqCounts.none {s t : State} (hout : completions t.out = completions s.out) (hseq : t.seq = s.seq) :
    SeqCounts s t :=
  ⟨[], by simp [hout], by simp [hseq]⟩

theorem decide_odd_add (a b : Nat) :
    decide ((a + b) % 2 = 1) = (decide (a % 2 = 1) ^^ decide (b % 2 = 1)) := by
  rcases Nat.mod_two_eq_zero_or_one a with ha | ha <;> rcases Nat.mod_two_eq_zero_or_one b with hb | hb <;>
    simp [Nat.add_mod, ha, hb]

theorem SeqCounts.trans {s t u : State} (h1 : SeqCounts s t) (h2 : SeqCounts t u) : SeqCounts s u := by
  obtain ⟨ps, hp, hs⟩ := h1
  obtain ⟨qs, hq, ht⟩ := h2
  exact ⟨ps ++ qs, by rw [hq, hp, List.append_assoc],
    by rw [ht, hs, List.length_append, decide_odd_add, Bool.xor_assoc]⟩

theorem stepQuiet_seqCounts : StepQuiet SeqCounts where
  refl _ := .none rfl rfl
  trans := SeqCounts.trans
  setHost _ _ := .none rfl rfl
  setDraws _ _ _ := .none rfl rfl
  install _ _ _ := .none (by simp [installKey, completions]) rfl
  clear _ := .none (by simp [clearKey, completions]) rfl
  answer s r _ := by
    cases r with
    | ok data => exact .none (by simp [State.answer, completions]) rfl
    | error e => exact .none (by simp [State.answer, completions]) rfl
  setInbox _ _ := .none rfl rfl

/-- An EXEC that is no SYNC leaves SEQ and completes nothing. -/
theorem seqCounts_startCommand {flags : CmdFlags} (hsync : flags.isSync = false) (code : Byte) (args : Bytes) (s : State) :
    SeqCounts s (startCommand flags code args s).1 := by
  rcases startCommand_cases flags code args s with ⟨e, b, q, n, -, -, hb, h⟩ | ⟨packet, pad, q, n, -, -, -, -, -, h⟩ <;>
    rw [h]
  · exact .none (by simp [completions]) (hb hsync)
  · exact .none (by simp [completions]) (by simp [hsync])

theorem seqCounts_failAttempt (c : Status) (s : State) : SeqCounts s (failAttempt c s) :=
  failAttempt_keeps c (fun _ => .none (by simp [completions]) rfl) fun _ => .none (by simp [completions]) rfl

theorem seqCounts_completeCommand (p : Bytes) (s : State) : SeqCounts s (completeCommand p s) :=
  ⟨[p], by simp [completeCommand_eq, completions], by simp [completeCommand_eq]⟩

/-- Settles O42: only the completion of a command inverts SEQ, and it adds one completion. -/
theorem sequenceBitCountsCompletions : Obligations.SequenceBitCountsCompletions := by
  intro i s t he hsync
  rcases exec_moves stepQuiet_seqCounts he with ⟨y, hy, hm⟩ | hi
  · refine hm.keeps stepQuiet_seqCounts.toQuiet fun flags code args u hflags => seqCounts_startCommand ?_ code args u
    rw [hflags]
    by_contra hne
    obtain ⟨flags', code', args', rfl, hs⟩ := hy (by simpa using hne)
    exact absurd ((hsync flags' code' args' rfl).symm.trans hs) Bool.false_ne_true
  · refine line_keeps (Q := SeqCounts) (fun _ => .none rfl rfl) SeqCounts.trans (fun _ _ _ => .none rfl rfl)
      (fun c u _ _ => seqCounts_failAttempt c u) (fun f p u _ => ?_) hi he
    split
    · exact seqCounts_completeCommand p u.countUp
    · exact seqCounts_completeCommand p u

/-! ### TXBUF, OSEQ and the writes (rules R36 (d), R85 and R260) -/

@[simp] theorem txdWrites_append (xs ys : List Output) : txdWrites (xs ++ ys) = txdWrites xs ++ txdWrites ys :=
  List.filterMap_append

/-- The registers of the command in flight are as they were, and nothing was written. -/
structure SameCommand (s t : State) : Prop where
  sess : t.sess = s.sess
  proc : t.proc = s.proc
  attempt : t.attempt = s.attempt
  txBuf : t.txBuf = s.txBuf
  oSeq : t.oSeq = s.oSeq
  writes : txdWrites t.out = txdWrites s.out

theorem SameCommand.respond (s : State) (r : Res) : SameCommand s (s.respond r) :=
  ⟨rfl, rfl, rfl, rfl, rfl, by simp [txdWrites]⟩

theorem stepQuiet_sameCommand : StepQuiet SameCommand where
  refl _ := ⟨rfl, rfl, rfl, rfl, rfl, rfl⟩
  trans h1 h2 := ⟨h2.sess.trans h1.sess, h2.proc.trans h1.proc, h2.attempt.trans h1.attempt, h2.txBuf.trans h1.txBuf,
    h2.oSeq.trans h1.oSeq, h2.writes.trans h1.writes⟩
  setHost _ _ := ⟨rfl, rfl, rfl, rfl, rfl, rfl⟩
  setDraws _ _ _ := ⟨rfl, rfl, rfl, rfl, rfl, rfl⟩
  install key s _ := ⟨rfl, rfl, rfl, rfl, rfl, (SameCommand.respond (s.loadKey key) _).writes⟩
  clear s := ⟨rfl, rfl, rfl, rfl, rfl, (SameCommand.respond s.dropKey _).writes⟩
  answer s r _ := by
    cases r with
    | ok data => exact .respond s _
    | error e => exact .respond s _
  setInbox _ _ := ⟨rfl, rfl, rfl, rfl, rfl, rfl⟩

/-- EXEC leaves the command in flight alone, or starts one where none is, with its first write. -/
theorem startCommand_sameCommand_or_begins (flags : CmdFlags) (code : Byte) (args : Bytes) (s : State) :
    SameCommand s (startCommand flags code args s).1 ∨
      (s.proc = false ∧ (startCommand flags code args s).1.sess = .awaiting ∧
        (startCommand flags code args s).1.attempt = 1 ∧
        txdWrites (startCommand flags code args s).1.out =
          txdWrites s.out ++ [(startCommand flags code args s).1.txBuf]) := by
  rcases startCommand_cases flags code args s with ⟨e, b, q, n, -, -, -, h⟩ | ⟨packet, pad, q, n, hp, -, -, -, -, h⟩ <;>
    rw [h]
  · exact .inl ⟨rfl, rfl, rfl, rfl, rfl, by simp [txdWrites]⟩
  · exact .inr ⟨hp, rfl, rfl, by simp [txdWrites]⟩

/-- So does every move of the host. -/
theorem HostMove.sameCommand_or_begins {y : Bool} {s t : State} (h : HostMove SameCommand y s t) :
    SameCommand s t ∨
      (s.proc = false ∧ t.sess = .awaiting ∧ t.attempt = 1 ∧ txdWrites t.out = txdWrites s.out ++ [t.txBuf]) := by
  rcases h with h | ⟨u, flags, code, args, -, hsu, hvt⟩
  · exact .inl h
  · rcases startCommand_sameCommand_or_begins flags code args u with hsame | ⟨hp, hsess, hatt, hw⟩
    · exact .inl (stepQuiet_sameCommand.trans hsu (stepQuiet_sameCommand.trans hsame hvt))
    · exact .inr ⟨hsu.proc.symm.trans hp, hvt.sess.trans hsess, hvt.attempt.trans hatt,
        by rw [hvt.writes, hw, hsu.writes, hvt.txBuf]⟩

/-- The timer runs for a command in flight only (rule R36 (b)). -/
def TimerInv (s : State) : Prop :=
  s.tmr = true → s.sess = .awaiting

/-- TXBUF and OSEQ stay, every further attempt is one write of TXBUF, and an IDLE session makes none. -/
def Resends (s t : State) : Prop :=
  TimerInv s → TimerInv t ∧ t.txBuf = s.txBuf ∧ t.oSeq = s.oSeq ∧ ∃ k, t.attempt = s.attempt + k ∧
    txdWrites t.out = txdWrites s.out ++ List.replicate k s.txBuf ∧ (s.sess = .idle → k = 0 ∧ t.sess = .idle)

theorem Resends.trans {s t u : State} (h1 : Resends s t) (h2 : Resends t u) : Resends s u := by
  intro hs
  obtain ⟨ht, hbuf1, hseq1, k, hatt1, hw1, hidle1⟩ := h1 hs
  obtain ⟨hu, hbuf2, hseq2, l, hatt2, hw2, hidle2⟩ := h2 ht
  refine ⟨hu, hbuf2.trans hbuf1, hseq2.trans hseq1, k + l, by omega, ?_, fun hsess => ?_⟩
  · rw [hw2, hw1, hbuf1, List.append_assoc, List.replicate_append_replicate]
  · obtain ⟨hk, htsess⟩ := hidle1 hsess
    obtain ⟨hl, husess⟩ := hidle2 htsess
    exact ⟨by omega, husess⟩

theorem resends_failAttempt (c : Status) {s : State} (h : s.sess = .awaiting ∨ s.tmr = true) :
    Resends s (failAttempt c s) := by
  intro htimer
  have hs : s.sess = .awaiting := h.elim id htimer
  have hnot : s.sess = .idle → False := fun hidle => by cases hs.symm.trans hidle
  refine failAttempt_keeps (P := fun t => TimerInv t ∧ t.txBuf = s.txBuf ∧ t.oSeq = s.oSeq ∧ ∃ k, t.attempt = s.attempt + k ∧
    txdWrites t.out = txdWrites s.out ++ List.replicate k s.txBuf ∧ (s.sess = .idle → k = 0 ∧ t.sess = .idle)) c
    (fun _ => ?_) fun _ => ?_
  · exact ⟨fun _ => hs, rfl, rfl, 1, rfl, by simp [txdWrites], fun hidle => (hnot hidle).elim⟩
  · exact ⟨nofun, rfl, rfl, 0, rfl, by simp [txdWrites], fun hidle => (hnot hidle).elim⟩

theorem resends_completeCommand (p : Bytes) (s : State) : Resends s (completeCommand p s) :=
  fun _ => ⟨nofun, rfl, rfl, 0, rfl, by simp [completeCommand_eq, txdWrites], fun _ => ⟨rfl, rfl⟩⟩

/-- The line and the timer write TXBUF only, once for each further attempt. -/
theorem resends_line {i : Instr} (hi : LineOp i) {s t : State} (he : exec i s = .next t) : Resends s t := by
  refine line_keeps (Q := Resends) (fun s ht => ⟨ht, rfl, rfl, 0, rfl, by simp, fun h => ⟨rfl, h⟩⟩) Resends.trans
    (fun s r buf ht => ⟨ht, rfl, rfl, 0, rfl, by simp, fun h => ⟨rfl, h⟩⟩) (fun c s _ h => resends_failAttempt c h)
    (fun f p s _ => ?_) hi he
  split
  · exact resends_completeCommand p s.countUp
  · exact resends_completeCommand p s

theorem timerInv_of_sessionInv {s : State} (h : SessionInv s) : TimerInv s :=
  fun ht => h.2.1.mpr ht

/-- Settles O41: while a command is in flight EXEC is refused, and only retries write. -/
theorem retriesRepeatTheSameBytes : Obligations.RetriesRepeatTheSameBytes := by
  intro i s t ⟨_, hsession, _⟩ hs he
  have hproc : s.proc = true := hsession.1.mpr hs
  rcases exec_moves stepQuiet_sameCommand he with ⟨y, -, hm⟩ | hi
  · rcases hm.sameCommand_or_begins with hsame | ⟨hidle, -⟩
    · exact ⟨hsame.txBuf, hsame.oSeq, 0, by simp [hsame.writes]⟩
    · exact absurd (hidle.symm.trans hproc) Bool.false_ne_true
  · obtain ⟨-, hbuf, hseq, k, -, hw, -⟩ := resends_line hi he (timerInv_of_sessionInv hsession)
    exact ⟨hbuf, hseq, k, hw⟩

/-- Settles O40: a host move leaves the command in flight alone or starts one with its first write; the line and the timer
write once for each further attempt. -/
theorem writesCountAttempts : Obligations.WritesCountAttempts := by
  intro s t ⟨_, hsession, _⟩ hstep
  have hproc : s.sess = .awaiting → s.proc = true := hsession.1.mpr
  rcases step_moves stepQuiet_sameCommand hstep with ⟨y, hm⟩ | ⟨i, rest, hi, he⟩
  · rcases hm.sameCommand_or_begins with hsame | ⟨hidle, hsess, hatt, hw⟩
    · exact ⟨fun _ => ⟨hsame.attempt.ge, by simp [hsame.attempt, hsame.writes]⟩,
        fun hs ht => (by cases (hsame.sess.trans hs).symm.trans ht), fun _ _ => hsame.writes⟩
    · exact ⟨fun hs => absurd (hidle.symm.trans (hproc hs)) Bool.false_ne_true, fun _ _ => ⟨hatt, hw⟩,
        fun _ ht => (by cases hsess.symm.trans ht)⟩
  · obtain ⟨-, -, -, k, hatt, hw, hidle⟩ := resends_line hi he (timerInv_of_sessionInv (s := s) hsession)
    refine ⟨fun _ => ⟨hatt.ge.trans' (Nat.le_add_right _ k), ?_⟩, fun hs ht => ?_, fun hs _ => ?_⟩
    · rw [hw, hatt, State.setInbox_attempt, Nat.add_sub_cancel_left]
      rfl
    · cases (hidle hs).2.symm.trans ht
    · rw [hw, (hidle hs).1]
      exact List.append_nil _

/-! ### The invariants (rules R24, R31 and R36) -/

/-- The session's invariants with the bounds of the buffers it writes. -/
def SoundSession (s : State) : Prop :=
  SessionInv s ∧ s.txBuf.length ≤ txBufCap ∧ s.key.length = aesKeyBytes

theorem seqByte_fields (seq : Bool) (d : BitVec 4) :
    (seqByte seq d).extractLsb' 4 3 = 0 ∧ (seqByte seq d).extractLsb' 0 4 = d ∧ seqByte seq d ≠ stx := by
  revert seq d
  decide

/-- What BUILD answers for a session's key is a packet of 6 to 519 bytes (rule R225). -/
theorem buildPacket_shape {reqArgs : Bool} {code sb : Byte} {args pad w : Bytes} {key : Option Bytes} {e : Count}
    (hkey : wfOptKey key = true) (hpad : buildPadLen reqArgs args key = .ok pad.length) (hsb : sb ≠ stx)
    (hbuild : buildPacket reqArgs code args sb key e pad = .ok w) :
    byteAt w 0 = stx ∧ byteAt w 1 = sb ∧ 6 ≤ w.length ∧ w.length ≤ txBufCap := by
  have hargs : ∃ data : Bytes, w = wirePacket sb data ∧ 1 ≤ data.length ∧ data.length ≤ 255 := by
    cases key with
    | none =>
      obtain ⟨hw, hdata⟩ := buildPacket_none_ok hbuild
      exact ⟨_, hw, Nat.le_add_left 1 _, hdata⟩
    | some k =>
      have hlen : pad.length = padLen (args.length + 1) := by
        have hpresent : reqArgs = true → args ≠ [] := by
          rintro hreq rfl
          cases hpad.symm.trans (buildPadLen_argsRequired hreq rfl)
        have hfits := length_le_payloadLimit_of_buildPadLen hpad
        exact Except.ok.inj (hpad.symm.trans (buildPadLen_ok hpresent hfits))
      obtain ⟨-, -, -, -, data, hw, hpos, hdata, -⟩ :=
        builtPacketShape reqArgs code args sb (some k) e pad w hkey hlen hsb hbuild
      exact ⟨data, hw, hpos, hdata⟩
  obtain ⟨data, rfl, hpos, hdata⟩ := hargs
  have hlen := le_length_wirePacket sb data
  exact ⟨rfl, byteAt_wirePacket_one hsb data, by omega, wirePacket_length_le sb data hdata⟩

theorem soundSession_startCommand (flags : CmdFlags) (code : Byte) (args : Bytes) {s : State} (h : SoundSession s) :
    SoundSession (startCommand flags code args s).1 := by
  obtain ⟨hsession, hbuf, hkey⟩ := h
  rcases startCommand_cases flags code args s with
    ⟨e, b, q, n, -, -, -, h⟩ | ⟨packet, pad, q, n, -, -, -, hbuild, hpad, h⟩ <;> rw [h]
  · exact ⟨hsession, hbuf, hkey⟩
  · have hwf : wfOptKey (commandKey flags s) = true := by
      rw [commandKey_eq]
      split
      · exact beq_iff_eq.mpr hkey
      · rfl
    obtain ⟨hbits, hnibble, hstx⟩ := seqByte_fields (flags.isSync || s.seq) s.cfg.deviceId
    obtain ⟨hmarker, hseq, hmin, hmax⟩ := buildPacket_shape hwf hpad hstx hbuild
    exact ⟨⟨⟨fun _ => rfl, fun _ => rfl⟩, ⟨fun _ => rfl, fun _ => rfl⟩, fun _ => ⟨Nat.le_refl 1, hmin, hmarker, hseq⟩,
      one_le_commandRetries s, hbits, hnibble⟩, hmax, hkey⟩

theorem soundSession_failAttempt (c : Status) {s : State} (hwaits : s.sess = .awaiting ∨ s.tmr = true)
    (h : SoundSession s) : SoundSession (failAttempt c s) := by
  obtain ⟨⟨hproc, htmr, hcommand, hbound, hbits, hnibble⟩, hbuf, hkey⟩ := h
  have hs : s.sess = .awaiting := hwaits.elim id htmr.mpr
  obtain ⟨hpos, hpacket⟩ := hcommand hs
  refine failAttempt_keeps c (fun hleft => ?_) fun _ => ?_
  · exact ⟨⟨⟨fun _ => hs, fun _ => rfl⟩, ⟨fun _ => rfl, fun _ => hs⟩, fun _ => ⟨Nat.le_add_left 1 _, hpacket⟩,
      hleft, hbits, hnibble⟩, hbuf, hkey⟩
  · exact ⟨⟨⟨nofun, nofun⟩, ⟨nofun, nofun⟩, nofun, hbound, hbits, hnibble⟩, hbuf, hkey⟩

theorem soundSession_completeCommand (p : Bytes) {s : State} (h : SoundSession s) :
    SoundSession (completeCommand p s) := by
  obtain ⟨⟨-, -, -, hbound, hbits, hnibble⟩, hbuf, hkey⟩ := h
  exact ⟨⟨⟨nofun, nofun⟩, ⟨nofun, nofun⟩, nofun, hbound, hbits, hnibble⟩, hbuf, hkey⟩

theorem kept_soundSession : Kept fun s t => SoundSession s → SoundSession t where
  refl _ := id
  trans h1 h2 := h2 ∘ h1
  setHost _ _ := id
  setDraws _ _ _ := id
  install _ _ hlen h := ⟨h.1, h.2.1, hlen⟩
  clear _ := id
  answer s r _ := by cases r <;> exact id
  setInbox _ _ := id
  start flags code args _ := soundSession_startCommand flags code args
  setRx _ _ _ := id
  fail c _ _ := soundSession_failAttempt c
  complete f p s _ h := by
    split
    · exact soundSession_completeCommand p (s := s.countUp) h
    · exact soundSession_completeCommand p h

theorem decoderInv_of_empty {s : State} (hrxs : s.rxs = .idle) (hbuf : s.rxBuf = []) : DecoderInv s := by
  simp [DecoderInv, hrxs, hbuf]

/-- A frame of two bytes has begun (rule R164). -/
theorem decoderInv_of_begun {s : State} (hrxs : s.rxs = .inFrame) {tail : Bytes} (hbuf : s.rxBuf = stx :: tail)
    (hshort : tail.length ≤ 1) : DecoderInv s := by
  refine ⟨by simp [hrxs, hbuf], fun _ => by rw [hbuf]; rfl, fun h => (by cases hrxs.symm.trans h), fun h => ?_⟩
  rw [hbuf, List.length_cons] at h
  omega

theorem decoderInv_appendByte {s : State} (h : DecoderInv s) (hrxs : s.rxs ≠ .idle) (b : Byte) :
    DecoderInv (appendByte b s) := by
  obtain ⟨hidle, hmarker, -, hshort⟩ := h
  have hpos : 0 < s.rxBuf.length := List.length_pos_iff.mpr (mt hidle.mpr hrxs)
  rcases appendByte_rx b s with ⟨hdone, hempty⟩ | ⟨hincomplete, hframe, hbuf⟩
  · exact decoderInv_of_empty hdone hempty
  · have hold : ∀ i, i < s.rxBuf.length → byteAt (s.rxBuf ++ [b]) i = byteAt s.rxBuf i := fun i hi => by
      simp [byteAt, List.getElem?_append_left hi]
    refine ⟨by simp [hframe, hbuf], fun _ => ?_, fun h => (by cases hframe.symm.trans h), fun h => ?_⟩
    · rw [hbuf, hold 0 hpos, hmarker hrxs]
    · rw [hbuf] at h ⊢
      have hne : (s.rxBuf ++ [b]).length ≠ (byteAt (s.rxBuf ++ [b]) 2).toNat + 5 := fun heq => by
        rw [frameComplete, decide_eq_true h, beq_iff_eq.mpr heq] at hincomplete
        cases hincomplete
      rw [List.length_append, List.length_singleton] at h hne ⊢
      by_cases hlong : 3 ≤ s.rxBuf.length
      · have hlt := hshort hlong
        rw [hold 2 (by omega)] at hne ⊢
        omega
      · omega

theorem decoderInv_rxByte {s : State} (h : DecoderInv s) (b : Byte) : DecoderInv (rxByte b s) := by
  obtain ⟨hidle, hmarker, hpending, hshort⟩ := id h
  cases hrxs : s.rxs with
  | idle =>
    by_cases hb : b = stx
    · rw [hb, rxByte_idle_stx hrxs]
      exact decoderInv_of_begun rfl rfl (by simp)
    · rwa [rxByte_idle_ne hrxs hb]
  | inFrame =>
    have hne : s.rxs ≠ .idle := by rw [hrxs]; decide
    by_cases hb : b = stx
    · subst hb
      by_cases hlone : s.rxBuf.length = 1
      · rw [rxByte_lone_stx hrxs hlone]
        exact decoderInv_of_empty rfl rfl
      · rw [rxByte_frame_stx hrxs hlone]
        have hpos : 0 < s.rxBuf.length := List.length_pos_iff.mpr (mt hidle.mpr hne)
        refine ⟨⟨nofun, fun hbuf => absurd (hidle.mpr hbuf) hne⟩, fun _ => hmarker hne, fun _ => ?_, hshort⟩
        show 2 ≤ s.rxBuf.length
        omega
    · rw [rxByte_frame_ne hrxs hb]
      exact decoderInv_appendByte h hne b
  | awaitStuff =>
    by_cases hb : b = stx
    · rw [hb, rxByte_pending_stx hrxs]
      exact decoderInv_appendByte h (by rw [hrxs]; decide) stx
    · rw [rxByte_pending_ne hrxs hb]
      exact decoderInv_of_begun rfl rfl (by simp)

theorem decoderInv_rxChunk (data : Bytes) {s : State} (h : DecoderInv s) : DecoderInv (rxChunk data s) := by
  induction data generalizing s with
  | nil => exact h
  | cons b bs ih => exact ih (decoderInv_rxByte h b)

/-- The decoder's registers are the same in both states. -/
theorem decoderInv_congr {s t : State} (hrxs : t.rxs = s.rxs) (hbuf : t.rxBuf = s.rxBuf) (h : DecoderInv s) :
    DecoderInv t := by
  unfold DecoderInv
  rwa [hrxs, hbuf]

theorem decoderInv_line {i : Instr} (hi : LineOp i) {s t : State} (he : exec i s = .next t) (h : DecoderInv s) :
    DecoderInv t := by
  cases i with
  | rxByte b => cases he; exact decoderInv_rxByte h b
  | rxChunk data => cases he; exact decoderInv_rxChunk data h
  | rxFlush =>
    cases he
    by_cases hbuf : s.rxBuf = []
    · rw [rxFlush_empty hbuf]
      exact decoderInv_of_empty rfl rfl
    · obtain ⟨hrxs, hempty⟩ := frameIn_rx s.rxBuf (s.setRx .idle [])
      rw [rxFlush_partial hbuf]
      exact decoderInv_of_empty hrxs hempty
  | frameIn f =>
    cases he
    exact decoderInv_congr (frameIn_rx f s).1 (frameIn_rx f s).2 h
  | timeout =>
    cases he
    split
    · exact decoderInv_congr (failAttempt_rx .timeout s).1 (failAttempt_rx .timeout s).2 h
    · exact h
  | _ => simp [LineOp, portOf] at hi

theorem stepQuiet_decoderInv : StepQuiet fun s t => DecoderInv s → DecoderInv t where
  refl _ := id
  trans h1 h2 := h2 ∘ h1
  setHost _ _ := id
  setDraws _ _ _ := id
  install _ _ _ := id
  clear _ := id
  answer s r _ := by cases r <;> exact id
  setInbox _ _ := id

theorem decoderInv_startCommand (flags : CmdFlags) (code : Byte) (args : Bytes) (s : State) (h : DecoderInv s) :
    DecoderInv (startCommand flags code args s).1 := by
  rcases startCommand_cases flags code args s with ⟨e, b, q, n, -, -, -, hs⟩ | ⟨packet, pad, q, n, -, -, -, -, -, hs⟩ <;>
    rw [hs] <;> exact h

/-- A frame under assembly is shorter than the longest frame (rule R22). -/
theorem rxBuf_length_le {s : State} (h : DecoderInv s) : s.rxBuf.length ≤ rxBufCap := by
  obtain ⟨-, -, -, hshort⟩ := h
  have hbyte := (byteAt s.rxBuf 2).isLt
  show s.rxBuf.length ≤ 260
  by_cases hlong : 3 ≤ s.rxBuf.length
  · have := hshort hlong
    omega
  · omega

/-- Settles O39: the decoder's and the session's invariants are kept apart from each other; RXBUF's bound follows from the
decoder's. -/
theorem everyStepKeepsTheInvariants : Obligations.EveryStepKeepsTheInvariants := by
  rintro s t ⟨hdecoder, hsession, -, hbuf, hkey⟩ hstep
  have hdecoder' : DecoderInv t :=
    step_keeps stepQuiet_decoderInv decoderInv_startCommand (fun hi he => decoderInv_line hi he) hstep hdecoder
  obtain ⟨hsession', hbuf', hkey'⟩ := kept_soundSession.step hstep ⟨hsession, hbuf, hkey⟩
  exact ⟨hdecoder', hsession', rxBuf_length_le hdecoder', hbuf', hkey'⟩

/-- Settles O37: each value is the one the reset state is written with. -/
theorem resetValues : Obligations.ResetValues := by
  unfold Obligations.ResetValues
  decide

/-- Settles O38: decoder and session are IDLE with empty buffers. -/
theorem resetIsSound : Obligations.ResetIsSound := by
  refine ⟨decoderInv_of_empty rfl rfl, ?session, memory_wf_reset⟩
  case session => decide

end Sys2Proof.Machine
end

section
/-! PROOF. ECOUNT (rules R27, R257 and R270).  A frame handed over advances the counter only where it completes the command as
an envelope; in a chunk that can happen once, as the session is IDLE afterwards. -/

namespace Sys2Proof.Machine

/-- The frame completes the command as an encrypted one, and the counter goes up by one. -/
def Advances (s t : State) (f p : Bytes) : Prop :=
  t.eCount = s.eCount + 1 ∧ s.keyV = true ∧ byteAt f 1 = s.oSeq ∧ 1 ≤ (byteAt f 2).toNat ∧ byteAt f 3 = 0x7E ∧
    extractPacket f (some s.key) s.eCount = .ok p ∧ completions t.out = completions s.out ++ [p]

/-- What one frame does to the counter: nothing while IDLE, nothing while the command goes on or ends otherwise, or one up
with the command's end. -/
theorem frameIn_count (f : Bytes) (s : State) :
    (s.sess = .idle ∧ frameIn f s = s) ∨
    (s.sess = .awaiting ∧ (frameIn f s).eCount = s.eCount ∧
      ((frameIn f s).sess = .awaiting → completions (frameIn f s).out = completions s.out)) ∨
    (s.sess = .awaiting ∧ (frameIn f s).sess = .idle ∧ ∃ p, Advances s (frameIn f s) f p) := by
  rcases frameIn_cases f s with h | ⟨c, hs, -, h⟩ | ⟨p, hs, hlen, hseq, hext, h⟩
  · exact .inl h
  · obtain ⟨-, -, hcount, hcompleted, -⟩ := failAttempt_summary c hs
    rw [h]
    exact .inr (.inl ⟨hs, hcount, fun _ => hcompleted⟩)
  · by_cases hup : countsUp f s = true
    · obtain ⟨hv, hpos, hmarker⟩ := (countsUp_iff f s).mp hup
      rw [sessionKey, if_pos hv] at hext
      rw [h, if_pos hup]
      exact .inr (.inr ⟨hs, rfl, p, rfl, hv, hseq, hpos, hmarker, hext, by simp [completeCommand_eq, completions]⟩)
    · rw [h, if_neg hup]
      exact .inr (.inl ⟨hs, rfl, nofun⟩)

/-- So a frame leaves the counter, or advances it. -/
theorem frameIn_eCount (f : Bytes) (s : State) :
    (frameIn f s).eCount = s.eCount ∨ ∃ p, Advances s (frameIn f s) f p := by
  rcases frameIn_count f s with ⟨-, h⟩ | ⟨-, h, -⟩ | ⟨-, -, h⟩
  · exact .inl (by rw [h])
  · exact .inl h
  · exact .inr h

theorem rxByte_eCount (b : Byte) (s : State) :
    (rxByte b s).eCount = s.eCount ∨ ∃ p, Advances s (rxByte b s) (s.rxBuf ++ [b]) p := by
  rcases rxByte_cases b s with ⟨r, buf, h⟩ | ⟨buf, -, -, rfl, h⟩ <;> rw [h]
  · exact .inl rfl
  · exact frameIn_eCount _ (s.setRx .idle [])

/-- After the beginning `xs` of a chunk the counter is as it was, and nothing has completed while the command still waits;
or the session is IDLE, and a frame in `xs` has advanced the counter. -/
def ChunkCounts (s : State) (xs : Bytes) : Prop :=
  ((rxChunk xs s).eCount = s.eCount ∧
    ((rxChunk xs s).sess = .awaiting → completions (rxChunk xs s).out = completions s.out)) ∨
  ((rxChunk xs s).sess = .idle ∧ ∃ before b rest p, xs = before ++ b :: rest ∧
    Advances s (rxChunk xs s) ((rxChunk before s).rxBuf ++ [b]) p)

/-- The line leaves OSEQ and the key alone, so an advance seen from within the chunk is one seen from its start. -/
theorem Advances.from_start {s u t : State} {f p : Bytes} (hreach : LineReach s u) (hcount : u.eCount = s.eCount)
    (hcompleted : completions u.out = completions s.out) (h : Advances u t f p) : Advances s t f p := by
  unfold LineReach at hreach
  have hv : u.keyV = s.keyV := by rw [hreach]
  have hkey : u.key = s.key := by rw [hreach]
  have hseq : u.oSeq = s.oSeq := by rw [hreach]
  unfold Advances at h ⊢
  rwa [hcount, hcompleted, hv, hkey, hseq] at h

theorem chunkCounts_snoc {s : State} {xs : Bytes} (h : ChunkCounts s xs) (b : Byte) : ChunkCounts s (xs ++ [b]) := by
  have hchunk : rxChunk (xs ++ [b]) s = rxByte b (rxChunk xs s) := rxChunk_append xs [b] s
  have hreach : LineReach s (rxChunk xs s) :=
    (lineAlike_lineReach s).invariant (i := .rxChunk xs) (.inl rfl) rfl (show LineReach s s from rfl)
  have still : ∀ u : State, rxByte b (rxChunk xs s) = u → u.eCount = (rxChunk xs s).eCount →
      u.sess = (rxChunk xs s).sess → u.out = (rxChunk xs s).out → ChunkCounts s (xs ++ [b]) := by
    rintro u rfl hcount hsess hout
    unfold ChunkCounts
    rw [hchunk, hcount, hsess, hout]
    refine h.imp_right fun ⟨hidle, before, c, rest, p, hxs, hup⟩ =>
      ⟨hidle, before, c, rest ++ [b], p, by simp [hxs], ?_⟩
    unfold Advances at hup ⊢
    rwa [hcount, hout]
  rcases rxByte_cases b (rxChunk xs s) with ⟨r, buf, hset⟩ | ⟨buf, -, -, rfl, hframe⟩
  · exact still _ hset rfl rfl rfl
  · rcases frameIn_count ((rxChunk xs s).rxBuf ++ [b]) ((rxChunk xs s).setRx .idle []) with
      ⟨-, hidle⟩ | ⟨hs, hcount, hwaits⟩ | ⟨hs, hidle, p, hup⟩
    · exact still _ (hframe.trans hidle) rfl rfl rfl
    all_goals
      have hbefore : (rxChunk xs s).eCount = s.eCount ∧ completions (rxChunk xs s).out = completions s.out := by
        rcases h with ⟨heq, hc⟩ | ⟨hidle', -⟩
        · exact ⟨heq, hc hs⟩
        · cases hidle'.symm.trans hs
      unfold ChunkCounts
      rw [hchunk, hframe]
    · exact .inl ⟨hcount.trans hbefore.1, fun hw => (hwaits hw).trans hbefore.2⟩
    · exact .inr ⟨hidle, xs, b, [], p, rfl, Advances.from_start hreach hbefore.1 hbefore.2 hup⟩

theorem chunkCounts (s : State) (data : Bytes) : ChunkCounts s data := by
  induction data using List.reverseRecOn with
  | nil => exact .inl ⟨rfl, fun _ => rfl⟩
  | append_singleton xs b ih => exact chunkCounts_snoc ih b

theorem failAttempt_eCount (c : Status) (s : State) : (failAttempt c s).eCount = s.eCount :=
  failAttempt_keeps (P := fun t => t.eCount = s.eCount) c (fun _ => rfl) fun _ => rfl

theorem startCommand_eCount (flags : CmdFlags) (code : Byte) (args : Bytes) (s : State) :
    (startCommand flags code args s).1.eCount = s.eCount := by
  rcases startCommand_cases flags code args s with ⟨e, b, q, n, -, -, -, h⟩ | ⟨packet, pad, q, n, -, -, -, -, -, h⟩ <;>
    rw [h]

theorem alike_eCount (n : Count) : Alike (OnBoth fun s => s.eCount = n) :=
  alike_onBoth (fun _ _ h => h) (fun _ _ _ h => h) (fun _ _ h => h) fun flags code args s h =>
    (startCommand_eCount flags code args s).trans h

/-- Settles O43: CMD and the host leave the counter but for the two clears; on the line the advance is a frame's. -/
theorem counterAdvancesOnlyOnCompletion : Obligations.CounterAdvancesOnlyOnCompletion := by
  intro i s t he hclear hinit
  have advances : ∀ {f p}, HandsOver i s f → Advances s t f p →
      t.eCount = s.eCount + 1 ∧ s.keyV = true ∧ ∃ f p, HandsOver i s f ∧ byteAt f 1 = s.oSeq ∧
        1 ≤ (byteAt f 2).toNat ∧ byteAt f 3 = 0x7E ∧ extractPacket f (some s.key) s.eCount = .ok p ∧
        completions t.out = completions s.out ++ [p] :=
    fun hf ⟨hcount, hv, hrest⟩ => ⟨hcount, hv, _, _, hf, hrest⟩
  rcases instr_kinds i with hi | ⟨key, rfl⟩ | rfl | hi
  · obtain ⟨t', v, ht, -, -, hcount⟩ := (alike_eCount s.eCount).exec ⟨rfl, rfl⟩ hi fun h => absurd h hinit
    obtain rfl : t' = t := Host.Outcome.next.inj (ht.symm.trans he)
    exact .inl hcount
  · cases he
    split <;> exact .inl rfl
  · exact absurd rfl hclear
  · cases i with
    | rxByte b =>
      cases he
      exact (rxByte_eCount b s).imp_right fun ⟨p, hup⟩ => advances (.inr (.inr (.inl ⟨b, rfl, rfl⟩))) hup
    | rxChunk data =>
      cases he
      refine (chunkCounts s data).imp And.left fun ⟨_, before, b, rest, p, hdata, hup⟩ => ?_
      exact advances (.inr (.inr (.inr ⟨before, b, rest, _, by rw [hdata], rfl, rfl⟩))) hup
    | rxFlush =>
      cases he
      rcases rxFlush_cases s with ⟨-, h⟩ | ⟨-, h⟩
      · rw [h] at advances ⊢
        exact (frameIn_eCount s.rxBuf (s.setRx .idle [])).imp_right fun ⟨p, hup⟩ => advances (.inr (.inl ⟨rfl, rfl⟩)) hup
      · exact .inl (by rw [h]; rfl)
    | frameIn f =>
      cases he
      exact (frameIn_eCount f s).imp_right fun ⟨p, hup⟩ => advances (.inl rfl) hup
    | timeout =>
      cases he
      split
      · exact .inl (failAttempt_eCount _ s)
      · exact .inl rfl
    | _ => simp [LineOp, portOf] at hi

end Sys2Proof.Machine
end

section
/-! PROOF. The host's key agreement and what the host's steps do, said once: the drawn key pair, the issue of a command, the
going on of a waiting procedure with a response, a failure or PROC = 0 (spec/45_key_agreement.md, spec/46_host_sequences.md). -/

namespace Sys2Proof.Machine

/-! ### The drawn key pair (rule R300) -/

/-- The two primes are ordered by size, and the zero check is one on the smaller. -/
theorem orderPrimes_eq (p1 p2 : Nat) :
    orderPrimes p1 p2 = if min p1 p2 = 0 then .error .keyExchangeFailure else .ok (max p1 p2, min p1 p2) := by
  rcases Nat.le_total p2 p1 with h | h
  · have hzero : (p1 = 0 ∨ p2 = 0) ↔ p2 = 0 := by omega
    simp [orderPrimes, h, hzero]
  · rcases h.eq_or_lt with rfl | hlt
    · simp [orderPrimes]
    · have hzero : (p2 = 0 ∨ p1 = 0) ↔ p1 = 0 := by omega
      simp [orderPrimes, h, hlt.not_ge, hzero]

/-- The key pair of the next three draws. -/
def drawnKeyPair (s : State) : KeyPair :=
  let p1 := s.draw.1 % 65536
  let p2 := s.draw.2.draw.1 % 65536
  let r := s.draw.2.draw.2.draw.1 % 2 ^ 31
  ⟨max p1 p2, min p1 p2, r, modexp (max p1 p2) r (min p1 p2)⟩

/-- A smaller prime of 0 fails the zero check, after two draws. -/
theorem generateKeys_fails {s : State} (h : (drawnKeyPair s).modulus = 0) :
    generateKeys s = (.error .keyExchangeFailure, s.draw.2.draw.2) := by
  have horder : orderPrimes (drawnPrime s.draw.1) (drawnPrime s.draw.2.draw.1) = .error .keyExchangeFailure :=
    (orderPrimes_eq _ _).trans (if_pos h)
  simp [generateKeys, horder]

/-- Past the zero check the exponent is drawn and the pair kept. -/
theorem generateKeys_draws {s : State} (h : (drawnKeyPair s).modulus ≠ 0) :
    generateKeys s = (.ok (drawnKeyPair s), s.draw.2.draw.2.draw.2.storeKeyPair (drawnKeyPair s)) := by
  have horder : orderPrimes (drawnPrime s.draw.1) (drawnPrime s.draw.2.draw.1) =
      .ok ((drawnKeyPair s).generator, (drawnKeyPair s).modulus) :=
    (orderPrimes_eq _ _).trans (if_neg h)
  simp only [generateKeys, horder]
  rfl

/-- A draw after draws is draws still. -/
theorem draw_setDraws {s u : State} (h : u = s.setDraws u.draws u.drawCount) :
    u.draw.2 = s.setDraws u.draw.2.draws u.draw.2.drawCount := by
  obtain ⟨q, n, hdraw⟩ := u.draw_state
  rw [hdraw, h]
  rfl

theorem drawTwice_eq (s : State) :
    s.draw.2.draw.2 = s.setDraws s.draw.2.draw.2.draws s.draw.2.draw.2.drawCount :=
  draw_setDraws (draw_setDraws (u := s) rfl)

theorem drawThrice_eq (s : State) :
    s.draw.2.draw.2.draw.2 = s.setDraws s.draw.2.draw.2.draw.2.draws s.draw.2.draw.2.draw.2.drawCount :=
  draw_setDraws (drawTwice_eq s)

/-- Settles O50: the result beside the two or three draws and the variables of the pair. -/
theorem genKeypairWritesTheKeyPair : Obligations.GenKeypairWritesTheKeyPair := by
  intro s p1 p2 u2 r u3 g m
  have hexec : exec .genKeypair s = execGenKeypair s := rfl
  by_cases hm : m = 0
  · rw [hexec, execGenKeypair, generateKeys_fails hm, if_pos hm, drawTwice_eq s]
    rfl
  · rw [hexec, execGenKeypair, generateKeys_draws hm, if_neg hm, drawThrice_eq s]
    rfl

/-! ### The derived key (rules R302 and R303) -/

theorem deriveSessionKey_fails {bytes : Bytes} (h : bytes.length ≠ 8) (fixedKey : BitVec 64) (hostRandom modulus : Nat) :
    deriveSessionKey bytes fixedKey hostRandom modulus = .error .keyExchangeFailure :=
  if_pos h

theorem deriveSessionKey_derives {bytes : Bytes} (h : bytes.length = 8) (fixedKey : BitVec 64) (hostRandom modulus : Nat) :
    deriveSessionKey bytes fixedKey hostRandom modulus =
      .ok ⟨fromLe bytes, modexp (fromLe bytes) hostRandom modulus,
        composeKey fixedKey (modexp (fromLe bytes) hostRandom modulus)⟩ :=
  if_neg (not_not.mpr h)

/-- The second half of the composed key is the derived number's low 64 bits, little-endian. -/
theorem fromLe_composeKey_drop (fixedKey : BitVec 64) (key : Nat) :
    fromLe ((composeKey fixedKey key).drop 8) = key % 2 ^ 64 :=
  (fromLe_le64 (BitVec.ofNat 64 key)).trans (BitVec.toNat_ofNat key 64)

/-- Settles O51: both halves of the composed key are read back as numbers, and a power is below a modulus of 1 or more. -/
theorem deriveKeyComposesTheKey : Obligations.DeriveKeyComposesTheKey := by
  intro bytes fixedKey hostRandom modulus s
  have hexec : exec (.deriveKey bytes fixedKey hostRandom modulus) s =
      execDeriveKey bytes fixedKey hostRandom modulus s := rfl
  refine ⟨fun hlen => ?_, fun hlen => ?_⟩
  · rw [hexec, execDeriveKey, deriveSessionKey_fails hlen]
    rfl
  · have hpow := fun hm : 1 ≤ modulus => modexp_eq_pow_mod (fromLe bytes) hostRandom hm
    refine ⟨modexp (fromLe bytes) hostRandom modulus, composeKey fixedKey (modexp (fromLe bytes) hostRandom modulus),
      ?_, composeKey_length _ _, fromLe_le64 fixedKey, fromLe_composeKey_drop _ _, hpow, fun hm hfits => ?_⟩
    · rw [hexec, execDeriveKey, deriveSessionKey_derives hlen]
      rfl
    · have hlt : modexp (fromLe bytes) hostRandom modulus < 2 ^ 64 := by
        rw [hpow hm]
        exact (Nat.mod_lt _ hm).trans_le hfits
      rw [fromLe_composeKey_drop, Nat.mod_eq_of_lt hlt]

/-! ### The issue of a command (rules R321 and R322) -/

theorem startCommand_key (flags : CmdFlags) (code : Byte) (args : Bytes) (s : State) :
    (startCommand flags code args s).1.key = s.key := by
  rcases startCommand_cases flags code args s with ⟨e, b, q, n, -, -, -, h⟩ | ⟨packet, pad, q, n, -, -, -, -, -, h⟩ <;>
    rw [h]

/-- "An `encode` that fails does so before the block has seen the command." -/
theorem issueCommand_encodeFailed {name : CommandName} {args : List Nat} {s : State}
    (h : encodeArgs s.cfg name args s.host.protocolVersion = none) (c : Continuation) :
    issueCommand name args c s = finishTask name c .encodeFailed s := by
  simp [issueCommand, issueExec, h]

/-- What the host's EXEC of a command leads to: `u` is the state after EXEC itself; a refusal is the outcome that the
procedure goes on with, and an admitted command is waited for. -/
structure Issued (name : CommandName) (args : List Nat) (c : Continuation) (s u : State) : Prop where
  host : u.host = s.host
  keyV : u.keyV = s.keyV
  key : u.key = s.key
  eCount : u.eCount = s.eCount
  refused : s.proc = true ∨ u.proc = false → ∃ e, u.out = s.out ++ [.res (.error e)] ∧
    issueCommand name args c s = finishTask name c (.refused e) u
  admitted : s.proc = false → u.proc = true → issueCommand name args c s = u.addTask (.awaiting name c u.out.length)

/-- Where the arguments are encoded, the command goes out as an EXEC of its own. -/
theorem issueCommand_execs {name : CommandName} {args : List Nat} {s : State} {bytes : Bytes}
    (h : encodeArgs s.cfg name args s.host.protocolVersion = some bytes) (c : Continuation) :
    ∃ u, exec (.exec (commandDescriptor s.cfg name).1 (commandDescriptor s.cfg name).2 bytes) s = .next u ∧
      Issued name args c s u := by
  refine ⟨_, exec_exec _ _ _ _, ?_⟩
  obtain ⟨hnone, -⟩ | ⟨bytes', hbytes, hhost, hissue⟩ := issueExec_cases name args s
  · cases hnone.symm.trans h
  obtain rfl := Option.some.inj (hbytes.symm.trans h)
  refine ⟨hhost, startCommand_keyV _ _ _ _, startCommand_key _ _ _ _, startCommand_eCount _ _ _ _, fun hproc => ?_,
    fun hproc hu => ?_⟩
  · obtain ⟨e, -, -, hout, hissue⟩ | ⟨hp, hu, -⟩ := hissue
    · exact ⟨e, hout, by rw [issueCommand, hissue]⟩
    · rcases hproc with hbusy | hidle
      · cases hbusy.symm.trans hp
      · cases hu.symm.trans hidle
  · obtain ⟨e, -, hsame, -, -⟩ | ⟨-, -, hissue⟩ := hissue
    · cases hu.symm.trans (hsame.trans hproc)
    · rw [issueCommand, hissue]

/-! The host's updates on a state of which the host's side is known. -/

theorem addResult_of_host {u : State} {h : HostSide} (hu : u.host = h) (r : HostResult) :
    u.addResult r = { u with host := { h with results := h.results ++ [r] } } := by
  rw [← hu]
  rfl

theorem addTask_of_host {u : State} {h : HostSide} (hu : u.host = h) (t : Task) :
    u.addTask t = { u with host := { h with tasks := h.tasks ++ [t] } } := by
  rw [← hu]
  rfl

/-! ### Going on with a waiting procedure (rules R322, R324 to R329) -/

theorem finishPayload_decoded {name : CommandName} {p : Bytes} {s t : State}
    (heffect : responseEffect name (decodeResponse s.cfg p name s.host.protocolVersion s.host.unitType) s = (.ok (), t))
    (c : Continuation) :
    finishPayload name c p s =
      finishTask name c (.decoded (decodeResponse s.cfg p name s.host.protocolVersion s.host.unitType)) t := by
  simp only [finishPayload, heffect]

theorem finishPayload_raised {name : CommandName} {p : Bytes} {s t : State} {e : Status}
    (heffect : responseEffect name (decodeResponse s.cfg p name s.host.protocolVersion s.host.unitType) s = (.error e, t))
    (c : Continuation) : finishPayload name c p s = finishTask name c (.raised e) t := by
  simp only [finishPayload, heffect]

section
variable {s : State} {k : Nat} {rest : List Input} (hin : s.inbox = .hostRun k :: rest)
include hin

theorem step_resumes {t : Task} (htask : s.host.tasks[k]? = some t) :
    step s = .next (resumeTask t ((s.setInbox rest).dropTask k) (s.setInbox rest)) := by
  have hrun : hostRun k (s.setInbox rest) = resumeTask t ((s.setInbox rest).dropTask k) (s.setInbox rest) := by
    rw [hostRun, show (s.setInbox rest).host.tasks[k]? = some t from htask]
  rw [step, fetch, hin, ← hrun]

theorem step_initIssue {n : Nat} {kp : KeyPair} (htask : s.host.tasks[k]? = some (.initIssue n kp)) :
    step s = .next (issueCommand (initCommand n) [initArgument n kp] (.initStep n kp) ((s.setInbox rest).dropTask k)) :=
  step_resumes hin htask

theorem step_awaiting_failed {name : CommandName} {c : Continuation} {mark a : Nat} {cause : Status}
    (htask : s.host.tasks[k]? = some (.awaiting name c mark))
    (hfinal : finalRecord (s.out.drop mark) = some (.error (a, cause))) :
    step s = .next (finishTask name c (.failed a cause) ((s.setInbox rest).dropTask k)) := by
  rw [step_resumes hin htask, resumeTask, show finalRecord ((s.setInbox rest).out.drop mark) = _ from hfinal]

section
variable {name : CommandName} {c : Continuation} {mark : Nat} {p : Bytes} {t : State}
variable (htask : s.host.tasks[k]? = some (.awaiting name c mark)) (hfinal : finalRecord (s.out.drop mark) = some (.ok p))
include htask hfinal

theorem step_awaiting_payload : step s = .next (finishPayload name c p ((s.setInbox rest).dropTask k)) := by
  rw [step_resumes hin htask, resumeTask, show finalRecord ((s.setInbox rest).out.drop mark) = _ from hfinal]

/-- The procedure goes on with the decoded response, past its side effects. -/
theorem step_awaiting_decoded
    (heffect : responseEffect name (decodeResponse s.cfg p name s.host.protocolVersion s.host.unitType)
      ((s.setInbox rest).dropTask k) = (.ok (), t)) :
    step s = .next (finishTask name c
      (.decoded (decodeResponse s.cfg p name s.host.protocolVersion s.host.unitType)) t) := by
  rw [step_awaiting_payload hin htask hfinal]
  exact congrArg _ (finishPayload_decoded heffect c)

/-- Side effects that raise are the command's outcome. -/
theorem step_awaiting_raised {e : Status}
    (heffect : responseEffect name (decodeResponse s.cfg p name s.host.protocolVersion s.host.unitType)
      ((s.setInbox rest).dropTask k) = (.error e, t)) :
    step s = .next (finishTask name c (.raised e) t) := by
  rw [step_awaiting_payload hin htask hfinal]
  exact congrArg _ (finishPayload_raised heffect c)

end

theorem step_pollWait_busy {desired : Bool} {enabling : Option CmdOutcome}
    (htask : s.host.tasks[k]? = some (.pollWait desired enabling)) (hproc : s.proc = true) :
    step s = .next (s.setInbox rest) :=
  (step_resumes hin htask).trans (congrArg _ (if_pos hproc))

theorem step_pollWait_idle {desired : Bool} {enabling : Option CmdOutcome}
    (htask : s.host.tasks[k]? = some (.pollWait desired enabling)) (hproc : s.proc = false) :
    step s = .next (returnEnabling enabling (applyPoll desired ((s.setInbox rest).dropTask k))) :=
  (step_resumes hin htask).trans (congrArg _ (if_neg (by simp [hproc])))

theorem step_disableWait_busy (htask : s.host.tasks[k]? = some .disableWait) (hproc : s.proc = true) :
    step s = .next (s.setInbox rest) :=
  (step_resumes hin htask).trans (congrArg _ (if_pos hproc))

theorem step_disableWait_idle (htask : s.host.tasks[k]? = some .disableWait) (hproc : s.proc = false) :
    step s = .next (disableStopped ((s.setInbox rest).dropTask k)) :=
  (step_resumes hin htask).trans (congrArg _ (if_neg (by simp [hproc])))

end

/-! ### A response's side effects (rule R329) -/

/-- The side effects of every response but a successful key exchange: what the host knows of the device. -/
theorem responseEffect_learns {name : CommandName} {d : Decoded} (s : State)
    (hclear : name = .requestKeyExchange → d.success = false) :
    responseEffect name d s = (.ok (), s.setLearned
      (if (name = .setupRequest ∨ name = .unitData) ∧ d.success = true then
          d.info.protocolVersion.or s.host.protocolVersion
        else if name = .hostProtocolVersion ∧ d.success = false then none else s.host.protocolVersion)
      (if (name = .setupRequest ∨ name = .unitData) ∧ d.success = true then d.info.unitType.or s.host.unitType
        else s.host.unitType)) := by
  have hsame : s = s.setLearned s.host.protocolVersion s.host.unitType := rfl
  cases name with
  | requestKeyExchange => simp [responseEffect, hclear rfl, ← hsame]
  | setupRequest => cases hd : d.success <;> simp [responseEffect, hd, ← hsame]
  | unitData => cases hd : d.success <;> simp [responseEffect, hd, ← hsame]
  | hostProtocolVersion => cases hd : d.success <;> simp [responseEffect, hd, ← hsame]
  | _ => simp [responseEffect, ← hsame]

/-- A response without success teaches nothing; of HOST_PROTOCOL_VERSION it clears what was learned. -/
theorem responseEffect_unsuccessful {name : CommandName} {d : Decoded} (s : State) (hd : d.success = false) :
    responseEffect name d s = (.ok (), s.setLearned
      (if name = .hostProtocolVersion then none else s.host.protocolVersion) s.host.unitType) := by
  rw [responseEffect_learns s fun _ => hd]
  simp [hd]

/-- A device's value that is not 8 bytes, or no key pair of the host's, raises and changes nothing. -/
theorem keyExchangeEffect_fails {d : Decoded} (s : State) (hlen : d.info.interKey.length ≠ 8) :
    keyExchangeEffect d s = (.error .keyExchangeFailure, s) := by
  unfold keyExchangeEffect
  cases s.host.hostRandom with
  | none => rfl
  | some hostRandom =>
    cases s.host.modulus with
    | none => rfl
    | some modulus => simp only [deriveSessionKey_fails hlen]

/-- DERIVE_KEY's variables and KEY_INSTALL as one update. -/
theorem installKey_storeDerived (s : State) (d : DerivedKey) :
    installKey d.encryptKey (s.storeDerived d) = { s with
      keyV := true, key := d.encryptKey, out := s.out ++ [.res (.ok [])],
      host := { s.host with slaveInterKey := some d.slaveInterKey, key := some d.key } } :=
  rfl

/-- An 8-byte value is derived from and the composed key installed. -/
theorem keyExchangeEffect_installs {d : Decoded} {s : State} {hostRandom modulus : Nat}
    (hrandom : s.host.hostRandom = some hostRandom) (hmodulus : s.host.modulus = some modulus)
    (hlen : d.info.interKey.length = 8) :
    let key := modexp (fromLe d.info.interKey) hostRandom modulus
    keyExchangeEffect d s = (.ok (), { s with
      keyV := true, key := composeKey s.cfg.fixedKey key, out := s.out ++ [.res (.ok [])],
      host := { s.host with slaveInterKey := some (fromLe d.info.interKey), key := some key } }) := by
  intro key
  let derived : DerivedKey := ⟨fromLe d.info.interKey, key, composeKey s.cfg.fixedKey key⟩
  have hinstall : keyExchangeEffect d s = (.ok (), installKey derived.encryptKey (s.storeDerived derived)) := by
    simp only [keyExchangeEffect, hrandom, hmodulus, deriveSessionKey_derives hlen]
    rfl
  exact hinstall.trans (congrArg _ (installKey_storeDerived s derived))

theorem responseEffect_exchanges {d : Decoded} (s : State) (hd : d.success = true) :
    responseEffect .requestKeyExchange d s = keyExchangeEffect d s :=
  if_pos hd

/-! ### INIT_ENCRYPTION's steps -/

theorem finishTask_initStep_next {name : CommandName} {n : Nat} {o : CmdOutcome} (kp : KeyPair) (s : State)
    (ho : succeeded o = true) (hn : n < 3) : finishTask name (.initStep n kp) o s = s.addTask (.initIssue (n + 1) kp) := by
  simp [finishTask, ho, hn]

theorem finishTask_initStep_done {name : CommandName} {o : CmdOutcome} (kp : KeyPair) (s : State)
    (ho : succeeded o = true) : finishTask name (.initStep 3 kp) o s = s.addResult .initDone := by
  simp [finishTask, ho]

/-- Settles O52: GEN_KEYPAIR and KEY_CLEAR, then each step's command as an EXEC, whose next state O26 gives in the clear. -/
theorem initEncryptionBegins : Obligations.InitEncryptionBegins := by
  refine ⟨?_, ⟨rfl, rfl, rfl, fun kp => ⟨rfl, rfl, rfl⟩⟩, ?_⟩
  · intro s p1 p2 u2 r u3 g m
    have hexec : exec .initEncryption s = .next (startInitEncryption s) := rfl
    by_cases hm : m = 0
    · rw [hexec, startInitEncryption, generateKeys_fails hm, if_pos hm, drawTwice_eq s]
      rfl
    · rw [hexec, startInitEncryption, generateKeys_draws hm, if_neg hm, drawThrice_eq s]
      rfl
  · intro s k n kp rest args hin htask hargs d h
    obtain ⟨u, hexec, hissued⟩ := issueCommand_execs (s := (s.setInbox rest).dropTask k) hargs (.initStep n kp)
    refine ⟨u, hexec, fun hproc hkeyless hknown hplain hneeds hfits => ?_, fun hproc hu => ?_⟩
    · have hclear := execAdmitsInTheClear d.1 d.2 args ((s.setInbox rest).dropTask k) hproc hknown
        (fun hreq => absurd hreq (by simp [hplain])) (fun hv => absurd (hkeyless.symm.trans hv) Bool.false_ne_true)
        hneeds hfits
      cases hexec.symm.trans hclear
      exact ⟨rfl, rfl⟩
    · rw [step_initIssue hin htask, hissued.admitted hproc hu, addTask_of_host hissued.host]
      rfl

/-- Settles O53: each way a step fails ends in the one result of a failed step, or of a direct exchange that raised. -/
theorem failedExchangeInstallsNoKey : Obligations.FailedExchangeInstallsNoKey := by
  refine ⟨?commandFails, ?notIssued, ?derivationFails⟩
  case commandFails =>
    intro s k n mark kp name rest hin htask h
    refine ⟨fun a c hfinal => ?_, fun p hfinal => ?_⟩
    · rw [step_awaiting_failed hin htask hfinal, finishTask_initStep_failed _ _ _ _ _ rfl]
      rfl
    · intro d hd
      have heffect := responseEffect_unsuccessful (name := name) ((s.setInbox rest).dropTask k) hd
      rw [step_awaiting_decoded hin htask hfinal heffect, finishTask_initStep_failed _ _ _ (.decoded _) _ hd]
      rfl
  case notIssued =>
    intro s k n kp rest hin htask d args h
    refine ⟨fun hnone => ?_, fun bytes hargs => ?_⟩
    · have hfail := issueCommand_encodeFailed (s := (s.setInbox rest).dropTask k) hnone (.initStep n kp)
      rw [step_initIssue hin htask, hfail, finishTask_initStep_failed _ _ _ _ _ rfl]
      rfl
    · obtain ⟨u, hexec, hissued⟩ := issueCommand_execs (s := (s.setInbox rest).dropTask k) hargs (.initStep n kp)
      refine ⟨u, hexec, fun hproc => ?_⟩
      obtain ⟨e, hout, hissue⟩ := hissued.refused hproc
      refine ⟨e, hout, hissued.keyV, hissued.key, hissued.eCount, ?_⟩
      rw [step_initIssue hin htask, hissue, finishTask_initStep_failed _ _ _ _ _ rfl, addResult_of_host hissued.host]
      rfl
  case derivationFails =>
    intro s k mark kp c p rest hc hin htask hfinal d hd hlen
    have heffect := (responseEffect_exchanges ((s.setInbox rest).dropTask k) hd).trans (keyExchangeEffect_fails _ hlen)
    rw [step_awaiting_raised hin htask hfinal heffect]
    rcases hc with rfl | rfl <;> rfl

/-- Settles O54: steps 1 and 2 have no side effect; step 3 and the direct command derive and install. -/
theorem completedExchangeInstallsTheKey : Obligations.CompletedExchangeInstallsTheKey := by
  refine ⟨?_, ?_⟩
  · intro s k n mark kp p rest hn hin htask hfinal hd
    have heffect : ∀ d, responseEffect (initCommand n) d ((s.setInbox rest).dropTask k) =
        (.ok (), (s.setInbox rest).dropTask k) := fun d => by rcases hn with rfl | rfl <;> rfl
    rw [step_awaiting_decoded hin htask hfinal (heffect _), finishTask_initStep_next (o := .decoded _) kp _ hd (by omega)]
    rfl
  · intro s k mark hostRandom modulus kp c p rest hc hin htask hfinal hrandom hmodulus d key hd hlen
    have heffect := (responseEffect_exchanges ((s.setInbox rest).dropTask k) hd).trans
      (keyExchangeEffect_installs hrandom hmodulus hlen)
    rw [step_awaiting_decoded hin htask hfinal heffect]
    rcases hc with rfl | rfl
    · rw [finishTask_initStep_done (o := .decoded _) kp _ hd, if_neg Continuation.noConfusion]
      rfl
    · rw [if_pos rfl]
      rfl

/-- Settles O55: the side effects on what the host knows, then the result of a direct command. -/
theorem responsesTeachTheHost : Obligations.ResponsesTeachTheHost := by
  intro s k mark name p rest hin htask hfinal d hclear teaches
  have heffect := responseEffect_learns ((s.setInbox rest).dropTask k) hclear
  rw [step_awaiting_decoded hin htask hfinal heffect]
  rfl

end Sys2Proof.Machine
end

section
/-! PROOF. ENABLE, DISABLE, POLL and the poll cycle (spec/46_host_sequences.md sections 4 and 5): each operation's steps and
ends, from the lemmas on issuing a command and going on with a procedure. -/

namespace Sys2Proof.Machine

/-! ### What the commands of these procedures do with their outcome -/

theorem finishTask_enable_success {o : CmdOutcome} (name : CommandName) (s : State) (ho : succeeded o = true) :
    finishTask name .enable o s = requestPoll true (some o) (s.setEnabled true) :=
  if_pos ho

theorem finishTask_enable_other {o : CmdOutcome} (name : CommandName) (s : State) (ho : succeeded o = false) :
    finishTask name .enable o s = s.addResult (.command name o) :=
  if_neg (by simp [ho])

theorem finishTask_disable_decoded (name : CommandName) (d : Decoded) (s : State) :
    finishTask name .disable (.decoded d) s =
      (s.setEnabled (s.host.enabled && !d.success)).addResult (.command name (.decoded d)) := by
  have hsame : s = s.setEnabled s.host.enabled := rfl
  cases hd : d.success <;> simp [finishTask, succeeded, hd, ← hsame]

theorem finishTask_disable_other {o : CmdOutcome} (name : CommandName) (s : State) (ho : succeeded o = false) :
    finishTask name .disable o s = s.addResult (.command name o) := by
  simp [finishTask, ho]

/-- The next cycle is scheduled while polling; one that is scheduled already stays. -/
theorem finishPollCycle_decoded (d : Decoded) (s : State) :
    finishPollCycle (.decoded d) s =
      (s.notify (d.info.events.map .poll)).setPolling s.host.polling (s.host.polling || s.host.pollScheduled) := by
  have hpolling : (s.notify (d.info.events.map .poll)).host.polling = s.host.polling := rfl
  cases hp : s.host.polling with
  | true => simp [finishPollCycle, hpolling, hp]
  | false =>
    simp only [finishPollCycle, hpolling, hp, Bool.false_eq_true, if_false, Bool.false_or]
    rw [← hp]
    rfl

/-- The poll cycle's error, on a state of which the host's side is known. -/
theorem finishPollCycle_error_of_host {u : State} {h : HostSide} {o : CmdOutcome} (hu : u.host = h)
    (ho : ∀ d, o ≠ .decoded d) :
    finishPollCycle o u = { u with host := { h with polling := false, events := h.events ++ [.error o] } } := by
  rw [← hu]
  cases o with
  | decoded d => exact absurd rfl (ho d)
  | _ => rfl

/-! ### The polling flags (rule R327) -/

theorem applyPoll_start (s : State) :
    applyPoll true s = { s with host :=
      { s.host with polling := true, pollScheduled := !s.host.polling || s.host.pollScheduled } } :=
  applyPoll_eq true s

theorem requestPoll_busy (desired : Bool) (enabling : Option CmdOutcome) {s : State} (hproc : s.proc = true) :
    requestPoll desired enabling s = s.addTask (.pollWait desired enabling) :=
  if_pos hproc

theorem requestPoll_idle (desired : Bool) (enabling : Option CmdOutcome) {s : State} (hproc : s.proc = false) :
    requestPoll desired enabling s = returnEnabling enabling (applyPoll desired s) :=
  if_neg (by simp [hproc])

/-- Settles O59: a request waits while PROC is 1, and the waiting one is the same request once PROC is 0. -/
theorem pollSetsPolling : Obligations.PollSetsPolling := by
  have hexec : ∀ desired s, exec (.poll desired) s = .next (requestPoll desired none s) := fun _ _ => rfl
  refine ⟨fun desired s => ⟨fun hproc => ?_, fun hproc hd hpolling => ?_, fun hproc hd hpolling => ?_, fun hproc hd => ?_⟩,
    fun desired s k rest hin htask => ⟨fun hproc => ?_, fun hproc => ?_⟩⟩
  · rw [hexec, requestPoll_busy _ _ hproc]
    rfl
  · have hsame : applyPoll true s = s := by simp [applyPoll, hpolling]
    rw [hexec, requestPoll_idle _ _ hproc, hd, hsame]
    rfl
  · rw [hexec, requestPoll_idle _ _ hproc, hd, applyPoll_start, hpolling]
    rfl
  · rw [hexec, requestPoll_idle _ _ hproc, hd]
    rfl
  · exact step_pollWait_busy hin htask hproc
  · have hrequest := requestPoll_idle (s := (s.setInbox rest).dropTask k) desired none hproc
    rw [step_pollWait_idle hin htask hproc, ← hrequest]
    rfl

/-! ### ENABLE (rule R325) -/

/-- Settles O57: the command is issued by name, and its outcome is no success unless EXEC admits it. -/
theorem enableIssuesItsCommand : Obligations.EnableIssuesItsCommand := by
  intro s d
  have hexec : exec .enable s = .next (issueCommand .enable [] .enable s) := rfl
  refine ⟨fun hnone => ?_, fun args hargs => ?_⟩
  · rw [hexec, issueCommand_encodeFailed hnone, finishTask_enable_other _ _ rfl]
    rfl
  · obtain ⟨u, hu, hissued⟩ := issueCommand_execs hargs .enable
    refine ⟨u, hu, fun hproc => ?_, fun hproc hadmitted => ?_⟩
    · obtain ⟨e, hout, hissue⟩ := hissued.refused hproc
      refine ⟨e, hout, ?_⟩
      rw [hexec, hissue, finishTask_enable_other _ _ rfl, addResult_of_host hissued.host]
    · rw [hexec, hissued.admitted hproc hadmitted, addTask_of_host hissued.host]

/-- Settles O56: a success asks for polling, which waits like any request; any other outcome is returned. -/
theorem enableSuccessStartsPolling : Obligations.EnableSuccessStartsPolling := by
  refine ⟨?success, ?pollWaited, ?otherEnds⟩
  case success =>
    intro s k mark p rest hin htask hfinal d hd h
    have hstep := (step_awaiting_decoded hin htask hfinal rfl).trans
      (congrArg _ (finishTask_enable_success (o := .decoded d) .enable _ hd))
    refine ⟨fun hproc => hstep.trans (congrArg _ ?_), fun hproc => hstep.trans (congrArg _ ?_)⟩
    · have hidle : (((s.setInbox rest).dropTask k).setEnabled true).proc = false := hproc
      rw [requestPoll_idle _ _ hidle, applyPoll_start]
      rfl
    · exact requestPoll_busy true (some (.decoded d)) hproc
  case pollWaited =>
    intro s k o rest hin htask
    refine ⟨step_pollWait_busy hin htask, fun hproc => ?_⟩
    rw [step_pollWait_idle hin htask hproc, applyPoll_start]
    rfl
  case otherEnds =>
    intro s k mark rest hin htask h
    refine ⟨fun a c hfinal => ?_, fun p hfinal => ?_⟩
    · rw [step_awaiting_failed hin htask hfinal, finishTask_enable_other _ _ rfl]
      rfl
    · intro d hd
      rw [step_awaiting_decoded hin htask hfinal rfl, finishTask_enable_other (o := .decoded _) _ _ hd]
      rfl

/-! ### DISABLE (rule R326) -/

theorem exec_disable_idle {s : State} (hproc : s.proc = false) : exec .disable s = .next (disableStopped s) :=
  congrArg Host.Outcome.next (if_neg (by simp [hproc]))

/-- Settles O58: the flags are cleared, then the command issued; a waiting DISABLE is the same once PROC is 0. -/
theorem disableStopsPollingFirst : Obligations.DisableStopsPollingFirst := by
  refine ⟨fun s => ⟨fun hproc => ?_, fun hproc => ?_⟩, ?waited, ?ends⟩
  · exact congrArg Host.Outcome.next (if_pos hproc)
  · intro h d
    have hexec : exec .disable s = .next (issueCommand .disable [] .disable (s.setHost h)) := exec_disable_idle hproc
    refine ⟨fun hnone => ?_, fun args hargs => ?_⟩
    · have hfail := issueCommand_encodeFailed (s := s.setHost h) hnone .disable
      rw [hexec, hfail, finishTask_disable_other _ _ rfl]
      rfl
    · obtain ⟨u, hu, hissued⟩ := issueCommand_execs (s := s.setHost h) hargs .disable
      refine ⟨u, hu, fun hrefused => ?_, fun hadmitted => ?_⟩
      · obtain ⟨e, hout, hissue⟩ := hissued.refused (.inr hrefused)
        refine ⟨e, hout, ?_⟩
        rw [hexec, hissue, finishTask_disable_other _ _ rfl, addResult_of_host hissued.host]
        rfl
      · rw [hexec, hissued.admitted hproc hadmitted, addTask_of_host hissued.host]
        rfl
  case waited =>
    intro s k rest hin htask
    refine ⟨step_disableWait_busy hin htask, fun hproc => ?_⟩
    exact (step_disableWait_idle hin htask hproc).trans (exec_disable_idle (s := (s.setInbox rest).dropTask k) hproc).symm
  case ends =>
    intro s k mark rest hin htask h
    refine ⟨fun a c hfinal => ?_, fun p hfinal => ?_⟩
    · rw [step_awaiting_failed hin htask hfinal, finishTask_disable_other _ _ rfl]
      rfl
    · rw [step_awaiting_decoded hin htask hfinal rfl, finishTask_disable_decoded]
      rfl

/-! ### The poll cycle (rule R328) -/

theorem step_pollTimer {s : State} {rest : List Input} (hin : s.inbox = .pollTimer :: rest) :
    step s = .next (pollTimer (s.setInbox rest)) := by
  rw [step, fetch, hin]

/-- The scheduled cycle takes its place in the schedule and issues POLL while polling. -/
theorem pollTimer_cycle {s : State} (hscheduled : s.host.pollScheduled = true) (hpolling : s.host.polling = true) :
    pollTimer s = issueCommand .poll [] .pollCycle (s.setHost { s.host with pollScheduled := false }) := by
  rw [pollTimer, if_pos hscheduled]
  exact if_pos hpolling

/-- Without polling no command goes out; the schedule is empty then. -/
theorem pollTimer_stopped {s : State} (hpolling : s.host.polling = false) :
    pollTimer s = s.setHost { s.host with pollScheduled := false } := by
  cases hscheduled : s.host.pollScheduled with
  | true =>
    rw [pollTimer, if_pos hscheduled]
    exact if_neg (mt hpolling.symm.trans Bool.false_ne_true)
  | false =>
    rw [pollTimer, hscheduled, if_neg Bool.false_ne_true, ← hscheduled]
    rfl

/-- Settles O60: the timer's step, then the ends of the cycle that waits. -/
theorem pollCycleGoesOnOrStops : Obligations.PollCycleGoesOnOrStops := by
  refine ⟨?timer, ?ends⟩
  case timer =>
    intro s rest hin h d args
    have hcycle : s.host.pollScheduled = true → s.host.polling = true →
        step s = .next (issueCommand .poll [] .pollCycle ((s.setInbox rest).setHost h)) := fun hscheduled hpolling =>
      (step_pollTimer hin).trans (congrArg _ (pollTimer_cycle (s := s.setInbox rest) hscheduled hpolling))
    refine ⟨fun hscheduled => ?_, fun hpolling => ?_, fun hscheduled hpolling hnone => ?_,
      fun hscheduled hpolling bytes hargs => ?_⟩
    · rw [step_pollTimer hin]
      exact congrArg _ (if_neg (by simp [hscheduled]))
    · rw [step_pollTimer hin]
      exact congrArg _ (pollTimer_stopped (s := s.setInbox rest) hpolling)
    · have hfail := issueCommand_encodeFailed (s := (s.setInbox rest).setHost h) hnone .pollCycle
      rw [hcycle hscheduled hpolling, hfail]
      rfl
    · have hstep := hcycle hscheduled hpolling
      obtain ⟨u, hu, hissued⟩ := issueCommand_execs (s := (s.setInbox rest).setHost h) hargs .pollCycle
      refine ⟨u, hu, fun hproc => ?_, fun hproc hadmitted => ?_⟩
      · obtain ⟨e, hout, hissue⟩ := hissued.refused hproc
        have herror := finishPollCycle_error_of_host (o := .refused e) hissued.host nofun
        exact ⟨e, hout, hstep.trans (congrArg _ (hissue.trans herror))⟩
      · rw [hstep, hissued.admitted hproc hadmitted, addTask_of_host hissued.host]
        rfl
  case ends =>
    intro s k mark rest hin htask h
    refine ⟨fun a c hfinal => ?_, fun p hfinal => ?_⟩
    · rw [step_awaiting_failed hin htask hfinal]
      rfl
    · rw [step_awaiting_decoded hin htask hfinal rfl]
      exact congrArg _ (finishPollCycle_decoded _ _)

end Sys2Proof.Machine
end
